-- ==== Sys2Proof/Word.lean ====
section
/-! DEFINITION. The words of the block: bytes, transaction words, register indices, the six date-time fields and
the civil-time record (00_scope.md R5, R6; 10_state.md R24, R25). -/

namespace Sys2Proof

/-- A bus byte, a data byte or a frame slot: 8 bits (00_scope.md R5, DATA_W). -/
abbrev Byte := BitVec 8

/-- A whole transaction as one word in order of transmission, bit 15 first (30_encoding.md R60). -/
abbrev TransactionWord := BitVec 16

/-- A register index of the peripheral: 7 bits (20_memory.md R40). -/
abbrev RegIndex := BitVec 7

/-- A value of the sequence counter: 3 bits (10_state.md R27). -/
abbrev SeqIndex := BitVec 3

/-- The six fields the codec packs, one for each register index of FIELD_IDX (30_encoding.md R63). Index 3, the
day-of-week, has no constructor: it is never produced and never consumed (10_state.md R22). -/
inductive Field where
  | sec | min | hour | day | mon | year
  deriving DecidableEq, Repr

/-- The civil-time record (10_state.md R24): exactly these six fields, all naturals (R25 lets a model take unbounded
naturals). -/
structure CivilTime where
  year   : Nat
  month  : Nat
  day    : Nat
  hour   : Nat
  minute : Nat
  second : Nat
  deriving DecidableEq, Repr

/-- The first byte of a transaction word, its address byte (30_encoding.md R60). -/
def TransactionWord.addressByte (w : TransactionWord) : Byte := w.extractLsb' 8 8

/-- The second byte of a transaction word, its data byte (30_encoding.md R60). -/
def TransactionWord.dataByte (w : TransactionWord) : Byte := w.extractLsb' 0 8

end Sys2Proof
end

