-- ==== Sys2Proof/Config.lean ====
section
/-! DEFINITION. The constants of the block (00_scope.md R5), its open parameters, and the values the spec leaves free. -/

namespace Sys2Proof.Config

/-- FIELD_IDX: the indices transacted, in this order (00_scope.md R5). -/
def fieldIdx : List SeqIndex := [0#3, 1#3, 2#3, 4#3, 5#3, 6#3]

/-- SKIP_IDX: the one index never read, written or produced. -/
def skipIdx : SeqIndex := 3#3

/-- N_XACT: transactions per full read or per full write. -/
def nXact : Nat := 6

/-- READ_OFFSET: added to the index to form a read address byte. -/
def readOffset : Byte := 0x00#8

/-- WRITE_OFFSET: added to the index to form a write address byte. -/
def writeOffset : Byte := 0x80#8

/-- DUMMY: the byte sent while the read data byte is captured. -/
def dummy : Byte := 0x00#8

/-- The index of the control register (10_state.md R32). -/
def ctrlIndex : RegIndex := 0x0E#7

/-- CTRL_WADDR: address byte of the power-on configuration write. -/
def ctrlWaddr : Byte := 0x8E#8

/-- CTRL_VALUE: data byte of the power-on configuration write. -/
def ctrlValue : Byte := 0x60#8

/-- SETTLE: the settle delay after INIT's chip-select deassertion, in time-units. -/
def settle : Nat := 10

/-- YEAR_BASE: subtracted from the year on encode, added on decode. -/
def yearBase : Nat := 1900

/-- YEAR_MOD: the reduced year is taken modulo this before packing. -/
def yearMod : Nat := 100

/-- The reading of YEAR_OVERFLOW (00_scope.md R5). -/
inductive YearOverflow where
  | mod100
  deriving DecidableEq, Repr

/-- YEAR_OVERFLOW: fixed to mod100 by the source's §8; named so that an audit can change it in one place
(92_eei_decisions.md D6). -/
def yearOverflow : YearOverflow := .mod100

/-- The order of the bits of a byte on the bus. -/
inductive BitOrder where
  | msbFirst
  deriving DecidableEq, Repr

/-- BIT_ORDER (20_memory.md R44). -/
def bitOrder : BitOrder := .msbFirst

/-- The clock and phase mode of the bus. -/
structure BusMode where
  clockIdlesHigh     : Bool
  samplesTrailing    : Bool
  deriving DecidableEq, Repr

/-- BUS_MODE, "mode 3": clock idle-high, trailing-edge sampling (20_memory.md R44). Configuration for the platform's
bus controller; no rule at byte level depends on it. -/
def busMode : BusMode := ⟨true, true⟩

/-- TIME_UNIT, open: the length of one time-unit; no source gives it (92_eei_decisions.md D11; log 18). -/
opaque timeUnit : Nat

/-- CS_ACTIVE_LEVEL, open: the electrical level of an asserted chip-select (92_eei_decisions.md D12; log 18). -/
opaque csActiveLevel : Bool

/-- FREE VALUE: the byte the peripheral sends in the n-th transfer (20_memory.md R50, `draw(8)`; log 6). -/
opaque busByte : Nat → Byte

/-- FREE VALUE: where the chip's internal register pointer stands after the n-th draw (20_memory.md R48; log 3). -/
opaque pointerAfter : Nat → RegIndex

/-- FREE VALUE: the byte an ENC function gives for an operand outside its defined domain (40_field_codec.md R121).
A function of the field and the operand, because R100 makes equal operands give equal results (log 7). -/
opaque encOutside : Field → Nat → Byte

end Sys2Proof.Config
end

