-- ==== Sys2Proof/Syntax.lean ====
section
/-! DEFINITION. The instructions of the block: its thirteen bus transactions, one constructor for each row of
spec/opcode_table.json (30_encoding.md R70). -/

namespace Sys2Proof

/-- The thirteen bus transactions (30_encoding.md R70). A date-time write carries its data byte, any of the 256 values
(40_field_codec.md R121); a read sends the fixed dummy byte; the control write sends the fixed byte 0x60. -/
inductive Instr where
  /-- WR.SEC, 41_bus_transactions.md R132 -/
  | wrSec (v : Byte)
  /-- WR.MIN, R133 -/
  | wrMin (v : Byte)
  /-- WR.HOUR, R134 -/
  | wrHour (v : Byte)
  /-- WR.DAY, R135 -/
  | wrDay (v : Byte)
  /-- WR.MON, R136 -/
  | wrMon (v : Byte)
  /-- WR.YEAR, R137 -/
  | wrYear (v : Byte)
  /-- RD.SEC, R138 -/
  | rdSec
  /-- RD.MIN, R139 -/
  | rdMin
  /-- RD.HOUR, R140 -/
  | rdHour
  /-- RD.DAY, R141 -/
  | rdDay
  /-- RD.MON, R142 -/
  | rdMon
  /-- RD.YEAR, R143 -/
  | rdYear
  /-- WR.CTRL, R144 -/
  | wrCtrl
  deriving DecidableEq, Repr

end Sys2Proof
end

