-- ==== Sys2Proof/WellFormed.lean ====
section
/-! DEFINITION. What is well formed: the words the block issues, and the civil times the encoder is defined on.
Every term of Instr is well formed by its type: a write's operand is a byte and every byte may be sent
(40_field_codec.md R121), a read and the control write have no operand. The checks are therefore on the raw data from
which instructions come. -/

namespace Sys2Proof

/-- The thirteen address bytes the block ever issues (20_memory.md R42). -/
def issuedAddresses : List Byte :=
  [0x00#8, 0x01#8, 0x02#8, 0x04#8, 0x05#8, 0x06#8, 0x80#8, 0x81#8, 0x82#8, 0x84#8, 0x85#8, 0x86#8, 0x8E#8]

/-- The data byte that may follow an address byte: the dummy after a read address (30_encoding.md R69), 0x60 after the
control register's (R74), any byte after a date-time write address (40_field_codec.md R121). -/
def dataAllowed (a d : Byte) : Bool :=
  if a.msb then (if a = Config.ctrlWaddr then d = Config.ctrlValue else true) else d = Config.dummy

/-- A word the block may issue: one of the thirteen rows of the opcode map (30_encoding.md R70 to R72, R74). -/
def TransactionWord.issued (w : TransactionWord) : Bool :=
  issuedAddresses.contains w.addressByte && dataAllowed w.addressByte w.dataByte

/-- An instruction's operands are in the range its row gives them: a write's data half is eight free bits and the
other rows have no operand (30_encoding.md R70), so the type leaves nothing to check. -/
def Instr.wellFormed : Instr → Bool
  | .wrSec _ | .wrMin _ | .wrHour _ | .wrDay _ | .wrMon _ | .wrYear _ => true
  | .rdSec | .rdMin | .rdHour | .rdDay | .rdMon | .rdYear => true
  | .wrCtrl => true

/-- Every field in the defined domain of its encoder (40_field_codec.md R101 to R106): the year 1900 or above. That it
has no top is the unbounded reading R25 allows (log 19). -/
def CivilTime.inEncodeDomain (t : CivilTime) : Bool :=
  decide (1900 ≤ t.year) && decide (1 ≤ t.month) && decide (t.month ≤ 12) && decide (1 ≤ t.day) && decide (t.day ≤ 31)
    && decide (t.hour ≤ 23) && decide (t.minute ≤ 59) && decide (t.second ≤ 59)

/-- Every field in its natural range (10_state.md R24): in the encoders' domain, and the year at most four digits. The
calendar is not checked: 31 February is natural. -/
def CivilTime.natural (t : CivilTime) : Bool := t.inEncodeDomain && decide (t.year ≤ 9999)

/-- Every field fits the width the spec gives it: year 14 bits, month 5, day 6, hour 6, minute 7, second 7
(10_state.md R25). -/
def CivilTime.fits (t : CivilTime) : Bool :=
  decide (t.year < 2 ^ 14) && decide (t.month < 2 ^ 5) && decide (t.day < 2 ^ 6) && decide (t.hour < 2 ^ 6)
    && decide (t.minute < 2 ^ 7) && decide (t.second < 2 ^ 7)

end Sys2Proof
end

