-- ==== Sys2Proof/Decode.lean ====
section
/-! DEFINITION. The decoder of transactions, total on any bytes and rejecting by name, and after it the encoder
(30_encoding.md R60, R61, R70 to R75). -/

namespace Sys2Proof

/-- Why a byte sequence is none of the block's thirteen transactions. -/
inductive Reject where
  /-- Not exactly two bytes (30_encoding.md R75). -/
  | notTwoBytes
  /-- The address byte is none of the thirteen (20_memory.md R42; 30_encoding.md R71, R72). -/
  | addressNeverIssued (address : Byte)
  /-- A read's second byte is not the dummy 0x00 (30_encoding.md R69). -/
  | readDataNotDummy (data : Byte)
  /-- The control write's data byte is not 0x60 (30_encoding.md R74). -/
  | ctrlDataNeverWritten (data : Byte)
  deriving DecidableEq, Repr

/-- A read row of the opcode map: the fixed data half is the dummy byte (30_encoding.md R69, R70). -/
def decodeRead (i : Instr) (d : Byte) : Except Reject Instr :=
  if d = 0x00#8 then .ok i else .error (.readDataNotDummy d)

/-- The control row of the opcode map: the fixed data half is 0x60 (30_encoding.md R70, R74). -/
def decodeCtrl (d : Byte) : Except Reject Instr :=
  if d = 0x60#8 then .ok .wrCtrl else .error (.ctrlDataNeverWritten d)

/-- The opcode map: each transaction is selected by its address byte alone (30_encoding.md R70). -/
def decodePair (a d : Byte) : Except Reject Instr :=
  if a = 0x80#8 then .ok (.wrSec d)
  else if a = 0x81#8 then .ok (.wrMin d)
  else if a = 0x82#8 then .ok (.wrHour d)
  else if a = 0x84#8 then .ok (.wrDay d)
  else if a = 0x85#8 then .ok (.wrMon d)
  else if a = 0x86#8 then .ok (.wrYear d)
  else if a = 0x8E#8 then decodeCtrl d
  else if a = 0x00#8 then decodeRead .rdSec d
  else if a = 0x01#8 then decodeRead .rdMin d
  else if a = 0x02#8 then decodeRead .rdHour d
  else if a = 0x04#8 then decodeRead .rdDay d
  else if a = 0x05#8 then decodeRead .rdMon d
  else if a = 0x06#8 then decodeRead .rdYear d
  else .error (.addressNeverIssued a)

/-- Decode the bytes sent under one chip-select assertion, in order of transmission (30_encoding.md R60, R75). -/
def decode : List Byte → Except Reject Instr
  | [a, d] => decodePair a d
  | _ => .error .notTwoBytes

/-- The two bytes of a transaction in order of transmission, from the words of the opcode map (30_encoding.md R70). -/
def encode : Instr → List Byte
  | .wrSec v => [0x80#8, v]
  | .wrMin v => [0x81#8, v]
  | .wrHour v => [0x82#8, v]
  | .wrDay v => [0x84#8, v]
  | .wrMon v => [0x85#8, v]
  | .wrYear v => [0x86#8, v]
  | .rdSec => [0x00#8, 0x00#8]
  | .rdMin => [0x01#8, 0x00#8]
  | .rdHour => [0x02#8, 0x00#8]
  | .rdDay => [0x04#8, 0x00#8]
  | .rdMon => [0x05#8, 0x00#8]
  | .rdYear => [0x06#8, 0x00#8]
  | .wrCtrl => [0x8E#8, 0x60#8]

/-- The bits of a byte in the order they go over the bus: bit 7 first (20_memory.md R44). -/
def wireBits (b : Byte) : List Bool :=
  match Config.bitOrder with
  | .msbFirst => [b.getLsbD 7, b.getLsbD 6, b.getLsbD 5, b.getLsbD 4, b.getLsbD 3, b.getLsbD 2, b.getLsbD 1, b.getLsbD 0]

/-- The bytes of a transaction word in order of transmission: bit 15 is the first bit on the wire
(30_encoding.md R60). -/
def TransactionWord.bytes (w : TransactionWord) : List Byte := [w.addressByte, w.dataByte]

/-- The instruction the decoder reads from a word as spec/opcode_table.json numbers its bits: one 16-bit word, the
address byte in bits 15 to 8. A table bit above nbits is 0; no transaction is longer than 16 bits (30_encoding.md
R75). -/
def decodeTableWord (nbits w : Nat) : Option Instr :=
  if nbits ≤ 16 then
    match decode (TransactionWord.bytes (BitVec.ofNat 16 (w % 2 ^ nbits))) with
    | .ok i => some i
    | .error _ => none
  else none

end Sys2Proof
end

