-- ==== Sys2Proof/Machine/State.lean ====
section
/-! DEFINITION. The state of the block, of the peripheral as the spec names it, and of the records an observer keeps
(10_state.md; 20_memory.md R50, R59); why a step stops; the state after reset (10_state.md R35). -/

namespace Sys2Proof.Machine

/-- The chip-select state (10_state.md R28). -/
inductive ChipSelect where
  | asserted | deasserted
  deriving DecidableEq, Repr

/-- The events an observer of the bus sees (20_memory.md R59). -/
inductive BusEvent where
  /-- `CS+` -/
  | csOn
  /-- `CS-` -/
  | csOff
  /-- `X(o,i)`: o sent, i received. -/
  | xfer (sent received : Byte)
  /-- `W(n)`: a delay of n time-units. -/
  | wait (n : Nat)
  deriving DecidableEq, Repr

/-- The three host operations (30_encoding.md R77, R78). -/
inductive Op where
  | init | set | read
  deriving DecidableEq, Repr

/-- What the sequencer is doing (42_sequences.md R160 to R162, R166). It is `idle` exactly when `busy` is false
(log 12). -/
inductive Activity where
  /-- No operation is in progress. -/
  | idle
  /-- An operation is in progress and its next transaction is due: WR.CTRL, or the one of index `idx`. -/
  | transacting (op : Op)
  /-- INIT, after WR.CTRL: the settle delay is due. -/
  | settling
  /-- READ_DATETIME, after RD.YEAR: the decode of the captured frame is due. -/
  | decoding
  deriving DecidableEq, Repr

/-- A request of the host (30_encoding.md R78). -/
inductive HostRequest where
  | init
  | setDatetime (t : CivilTime)
  | readDatetime
  deriving DecidableEq, Repr

/-- Who answers the transfers (20_memory.md R50): a peripheral no rule constrains, or the simulator of a static
register file, a test aid. -/
inductive Oracle where
  | unconstrained | simulator
  deriving DecidableEq, Repr

/-- The RawRegisterFrame: seven slots F[0..6] (10_state.md R21). `none` is the spec's own "without a value" (R22, R23,
R35; log 1). -/
structure Frame where
  /-- F[0] -/
  sec  : Option Byte
  /-- F[1] -/
  min  : Option Byte
  /-- F[2] -/
  hour : Option Byte
  /-- F[3], never produced and never consumed (R22) -/
  dow  : Option Byte
  /-- F[4] -/
  day  : Option Byte
  /-- F[5] -/
  mon  : Option Byte
  /-- F[6] -/
  year : Option Byte
  deriving DecidableEq, Repr

/-- Every slot without a value (10_state.md R23, R35). -/
def Frame.empty : Frame := ⟨none, none, none, none, none, none, none⟩

/-- The peripheral's register space as index and byte pairs, indices strictly rising, no entry equal to what an
unlisted index reads as (20_memory.md R40, R50). -/
abbrev Memory := List Host.Cell

/-- The state of the block (10_state.md R20), the peripheral's state (R31 to R34), the observer's records (20_memory.md
R59) and the environment's inputs. -/
@[ext]
structure State where
  /-- F (R21) -/
  frame       : Frame
  /-- The sequence counter (R27). -/
  idx         : SeqIndex
  /-- Chip-select (R28). -/
  cs          : ChipSelect
  /-- The operation in progress; `busy` is a view of it (R29). -/
  activity    : Activity
  /-- INIT has completed (R29); the block never reads it. -/
  inited      : Bool
  /-- The peripheral's register image: the bytes last sent to each index, and the simulator's file P (R31, R50). -/
  cells       : Memory
  /-- The chip's "oscillator/write-enable state" (R32, R34). -/
  unlocked    : Bool
  /-- The chip's "internal register pointer" (R34; 20_memory.md R48). -/
  pointer     : RegIndex
  /-- The trace, oldest event first (20_memory.md R59). -/
  trace       : List BusEvent
  /-- The CivilTime values READ_DATETIME has returned, oldest first (R26; 20_memory.md R59). -/
  returned    : List CivilTime
  /-- The requests the host will still make, oldest first (00_scope.md R10; log 10). -/
  requests    : List HostRequest
  /-- Who answers the transfers (20_memory.md R50). -/
  oracle      : Oracle
  /-- How many more transfers the bus answers, `none` for all of them (60_exceptions.md R188; log 8). -/
  answersLeft : Option Nat
  /-- How many free values have been drawn (00_scope.md R8, `draw`; log 6). -/
  draws       : Nat
  deriving DecidableEq, Repr

/-- Why the machine stops with a fault. The block itself raises nothing (60_exceptions.md R180): these are model
faults, and no run from reset meets one. -/
inductive Fault where
  /-- Raised by the fetch of a SET_DATETIME data byte and by DECODE_FRAME: a frame slot without a value was read
  (10_state.md R22, R35: "a read before a write is a model fault"). Safe. -/
  | slotWithoutValue (i : SeqIndex)
  /-- Raised by every transaction: it was begun with chip-select asserted, against the precondition of
  41_bus_transactions.md R130 and R131 (log 13). Safe. -/
  | chipSelectAlreadyAsserted
  deriving DecidableEq, Repr

/-- Why the machine refuses. -/
inductive Refusal where
  /-- Raised by exec for an instruction that has no meaning yet. Safe. -/
  | notModelled (mnemonic : String)
  /-- Raised by step: the word due is none of the thirteen transactions (20_memory.md R49; 30_encoding.md R71, R72).
  Safe. -/
  | neverIssued (why : Reject)
  /-- Raised by a host request while an operation is in progress: it has no meaning and no step (42_sequences.md R166).
  Safe. -/
  | requestWhileBusy (r : HostRequest)
  deriving DecidableEq, Repr

/-- The machine right after reset (10_state.md R35): idle, chip-select released, no frame, not initialised, an empty
trace. `idx`, `cells`, `unlocked` and `pointer` are unspecified there; their values are the model's (log 2 to 5), as are
the environment's fields (log 6, 8, 10). -/
def State.reset : State where
  frame       := Frame.empty
  idx         := 0#3
  cs          := .deasserted
  activity    := .idle
  inited      := false
  cells       := []
  unlocked    := false
  pointer     := 0#7
  trace       := []
  returned    := []
  requests    := []
  oracle      := .unconstrained
  answersLeft := none
  draws       := 0

end Sys2Proof.Machine
end

