-- ==== Sys2Proof/Machine/Ops.lean ====
section
/-! DEFINITION. The named operations over the frame, the peripheral's register space and the bus (10_state.md R21;
20_memory.md R41, R50, R58, R59; 41_bus_transactions.md R130, R131). There is no operation that takes an exception or
returns from one: the block has no trap entry and no trap return (60_exceptions.md R186, R187). -/

namespace Sys2Proof

/-- The register index of a field (30_encoding.md R63). -/
def Field.index : Field → SeqIndex
  | .sec => 0#3
  | .min => 1#3
  | .hour => 2#3
  | .day => 4#3
  | .mon => 5#3
  | .year => 6#3

/-- A field's index as a register index of the peripheral. -/
def Field.reg (f : Field) : RegIndex := f.index.setWidth 7

end Sys2Proof

namespace Sys2Proof.Machine

abbrev Result := Host.Outcome State Fault Refusal

/-! ### The frame (10_state.md R21) -/

/-- Read of slot i, `F[i]`: `none` where the slot holds no value, and for 7, which is no slot. -/
def Frame.get (F : Frame) (i : SeqIndex) : Option Byte :=
  match i.toNat with
  | 0 => F.sec
  | 1 => F.min
  | 2 => F.hour
  | 3 => F.dow
  | 4 => F.day
  | 5 => F.mon
  | 6 => F.year
  | _ => none

/-- `F[i] <- v` for the six indices a slot of which is ever written (10_state.md R22). -/
def Frame.set (F : Frame) (f : Field) (v : Byte) : Frame :=
  match f with
  | .sec => { F with sec := some v }
  | .min => { F with min := some v }
  | .hour => { F with hour := some v }
  | .day => { F with day := some v }
  | .mon => { F with mon := some v }
  | .year => { F with year := some v }

/-! ### The peripheral's register space (20_memory.md R40, R50) -/

/-- What an unlisted register reads as. The spec gives no reset contents (10_state.md R35); DESIGN CHOICE 0x00, unsafe
(log 5). -/
def unlistedByte : Byte := 0x00#8

/-- The register at an index, `P[a]`. -/
def Memory.read (m : Memory) (a : Nat) : Byte :=
  match m with
  | [] => unlistedByte
  | (b, w) :: rest => if a = b then w else Memory.read rest a

/-- `P[a] <- v`, keeping the canonical form: the value an unlisted register reads as removes the entry. -/
def Memory.write (m : Memory) (a : Nat) (v : Byte) : Memory :=
  match m with
  | [] => if v = unlistedByte then [] else [(a, v)]
  | (b, w) :: rest =>
    if a < b then (if v = unlistedByte then (b, w) :: rest else (a, v) :: (b, w) :: rest)
    else if a = b then (if v = unlistedByte then rest else (a, v) :: rest)
    else (b, w) :: Memory.write rest a v

/-- The canonical form from a lowest index on: strictly rising, inside the 7-bit index space, no entry with the value
an unlisted register reads as. -/
def Memory.wfFrom (m : Memory) (lo : Nat) : Bool :=
  match m with
  | [] => true
  | (a, v) :: rest => decide (lo ≤ a) && decide (a < 2 ^ 7) && decide (v ≠ unlistedByte) && Memory.wfFrom rest (a + 1)

/-- The canonical form of the register space. -/
def Memory.wf (m : Memory) : Bool := Memory.wfFrom m 0

/-! ### Address bytes (20_memory.md R41) -/

/-- The address byte of a write: index + 0x80. -/
def writeAddress (a : RegIndex) : Byte := a.setWidth 8 + Config.writeOffset

/-- The address byte of a read: index + 0x00. -/
def readAddress (a : RegIndex) : Byte := a.setWidth 8 + Config.readOffset

/-! ### The bus primitives (20_memory.md R58, R59) -/

/-- `CsAssert()`: set `cs` and append `CS+` (00_scope.md R8). -/
def State.csAssert (s : State) : State := { s with cs := .asserted, trace := s.trace ++ [.csOn] }

/-- `CsDeassert()`: set `cs` and append `CS-` (00_scope.md R8). -/
def State.csDeassert (s : State) : State := { s with cs := .deasserted, trace := s.trace ++ [.csOff] }

/-- `Wait(n)`: the bus idles for n time-units; `W(n)` is a marker, no clock is kept (60_exceptions.md R190). -/
def State.wait (n : Nat) (s : State) : State := { s with trace := s.trace ++ [.wait n] }

/-- Will the bus answer n more transfers (60_exceptions.md R188)? -/
def State.busAnswers (n : Nat) (s : State) : Bool :=
  match s.answersLeft with
  | none => true
  | some k => decide (n ≤ k)

/-- The byte the peripheral sends in the k-th transfer from now: a draw under the unconstrained oracle, `sim` under the
simulator (20_memory.md R50). -/
def State.answer (k : Nat) (sim : Byte) (s : State) : Byte :=
  match s.oracle with
  | .unconstrained => Config.busByte (s.draws + k)
  | .simulator => sim

/-- A transfer that returned: o sent, i received. -/
def State.transferred (o i : Byte) (s : State) : State :=
  { s with trace := s.trace ++ [.xfer o i], answersLeft := s.answersLeft.map (· - 1), draws := s.draws + 1 }

/-- `Xfer(o)`: the received byte and the state after it, or `none` where the transfer never returns (20_memory.md R58;
60_exceptions.md R188). `sim` is what the simulator answers. -/
def xfer (o sim : Byte) (s : State) : Option (Byte × State) :=
  match s.answersLeft with
  | some 0 => none
  | _ => some (s.answer 0 sim, s.transferred o (s.answer 0 sim))

/-- The side effect every transaction has on the peripheral: it moves the internal register pointer, no rule says
where (20_memory.md R48; log 3). -/
def State.movePointer (s : State) : State := { s with pointer := Config.pointerAfter s.draws }

/-- What the register image and the chip's unlock state take from a completed write of v to index a (20_memory.md R50;
10_state.md R32; log 4, 5). -/
def State.takeWrite (a : RegIndex) (v : Byte) (s : State) : State :=
  { s with cells := s.cells.write a.toNat v,
           unlocked := s.unlocked || decide (a = Config.ctrlIndex) }

/-- The common form of both transactions (41_bus_transactions.md R130, R131): select, address byte, data byte,
deselect. It gives the state and the byte of the second transfer, or no byte where a transfer never returned: then
chip-select stays asserted (60_exceptions.md R188). -/
def transact (addr data sim : Byte) (s : State) : State × Option Byte :=
  match xfer addr 0x00#8 s.csAssert with
  | none => (s.csAssert, none)
  | some (_, s1) =>
    match xfer data sim s1 with
    | none => (s1, none)
    | some (r, s2) => (s2.csDeassert.movePointer, some r)

/-- REG_WRITE(a, v) (41_bus_transactions.md R130). Both returned bytes are discarded (30_encoding.md R69). -/
def regWrite (a : RegIndex) (v : Byte) (s : State) : Result :=
  match s.cs with
  | .asserted => .fault .chipSelectAlreadyAsserted
  | .deasserted =>
    match transact (writeAddress a) v 0x00#8 s with
    | (t, none) => .next t
    | (t, some _) => .next (t.takeWrite a v)

/-- `F[i] <- v` on the state. -/
def State.setSlot (f : Field) (v : Byte) (s : State) : State := { s with frame := s.frame.set f v }

/-- `F[i] <- REG_READ(i)` (41_bus_transactions.md R131, R138 to R143): the byte of the second transfer, unchecked, into
slot i. -/
def regRead (f : Field) (s : State) : Result :=
  match s.cs with
  | .asserted => .fault .chipSelectAlreadyAsserted
  | .deasserted =>
    match transact (readAddress f.reg) Config.dummy (s.cells.read f.reg.toNat) s with
    | (t, none) => .next t
    | (t, some r) => .next (t.setSlot f r)

end Sys2Proof.Machine
end

