-- ==== Sys2Proof/Machine/ControlWrite.lean ====
section
/-! DEFINITION. The control write transaction (41_bus_transactions.md R144). -/

namespace Sys2Proof.Machine

/-- WR.CTRL (R144): `REG_WRITE(0x0E, 0x60)`. The settle delay belongs to INIT, not to this transaction. -/
def execWrCtrl (s : State) : Result := regWrite Config.ctrlIndex Config.ctrlValue s

end Sys2Proof.Machine
end

