-- ==== Sys2Proof/Machine/DateTimeReads.lean ====
section
/-! DEFINITION. The six date-time read transactions (41_bus_transactions.md R138 to R143): the captured byte goes whole
into its slot of the frame (R148). -/

namespace Sys2Proof.Machine

/-- RD.SEC (R138): `F[0] <- REG_READ(0)`. -/
def execRdSec (s : State) : Result := regRead .sec s

/-- RD.MIN (R139): `F[1] <- REG_READ(1)`. -/
def execRdMin (s : State) : Result := regRead .min s

/-- RD.HOUR (R140): `F[2] <- REG_READ(2)`. -/
def execRdHour (s : State) : Result := regRead .hour s

/-- RD.DAY (R141): `F[4] <- REG_READ(4)`. -/
def execRdDay (s : State) : Result := regRead .day s

/-- RD.MON (R142): `F[5] <- REG_READ(5)`. -/
def execRdMon (s : State) : Result := regRead .mon s

/-- RD.YEAR (R143): `F[6] <- REG_READ(6)`. -/
def execRdYear (s : State) : Result := regRead .year s

end Sys2Proof.Machine
end

