-- ==== Sys2Proof/Machine/DateTimeWrites.lean ====
section
/-! DEFINITION. The six date-time write transactions (41_bus_transactions.md R132 to R137): the byte is sent as given,
whatever its value. -/

namespace Sys2Proof.Machine

/-- WR.SEC (R132): `REG_WRITE(0, v)`. -/
def execWrSec (v : Byte) (s : State) : Result := regWrite 0#7 v s

/-- WR.MIN (R133): `REG_WRITE(1, v)`. -/
def execWrMin (v : Byte) (s : State) : Result := regWrite 1#7 v s

/-- WR.HOUR (R134): `REG_WRITE(2, v)`. -/
def execWrHour (v : Byte) (s : State) : Result := regWrite 2#7 v s

/-- WR.DAY (R135): `REG_WRITE(4, v)`. -/
def execWrDay (v : Byte) (s : State) : Result := regWrite 4#7 v s

/-- WR.MON (R136): `REG_WRITE(5, v)`. -/
def execWrMon (v : Byte) (s : State) : Result := regWrite 5#7 v s

/-- WR.YEAR (R137): `REG_WRITE(6, v)`. -/
def execWrYear (v : Byte) (s : State) : Result := regWrite 6#7 v s

end Sys2Proof.Machine
end

