-- ==== Sys2Proof/Machine/Dispatch.lean ====
section
/-! DEFINITION. One arm for each transaction of the opcode map (30_encoding.md R70). -/

namespace Sys2Proof.Machine

def exec (i : Instr) (s : State) : Host.Outcome State Fault Refusal :=
  match i with
  | .wrSec v => Sys2Proof.Machine.execWrSec v s
  | .wrMin v => Sys2Proof.Machine.execWrMin v s
  | .wrHour v => Sys2Proof.Machine.execWrHour v s
  | .wrDay v => Sys2Proof.Machine.execWrDay v s
  | .wrMon v => Sys2Proof.Machine.execWrMon v s
  | .wrYear v => Sys2Proof.Machine.execWrYear v s
  | .rdSec => Sys2Proof.Machine.execRdSec s
  | .rdMin => Sys2Proof.Machine.execRdMin s
  | .rdHour => Sys2Proof.Machine.execRdHour s
  | .rdDay => Sys2Proof.Machine.execRdDay s
  | .rdMon => Sys2Proof.Machine.execRdMon s
  | .rdYear => Sys2Proof.Machine.execRdYear s
  | .wrCtrl => Sys2Proof.Machine.execWrCtrl s

end Sys2Proof.Machine
end

