-- ==== Sys2Proof/Machine/Flags.lean ====
section
/-! DEFINITION. The one-bit views of the state. The block has no flags, no condition codes and no predicates
(10_state.md R30), so there is no flag computation: what stands here is `busy` and the chip-select line's level. -/

namespace Sys2Proof.Machine

/-- `busy`: an operation is in progress (10_state.md R29; log 12). -/
def State.busy (s : State) : Bool :=
  match s.activity with
  | .idle => false
  | _ => true

/-- The electrical level of the chip-select line; the level that means asserted is the open parameter CS_ACTIVE_LEVEL
(10_state.md R28; log 18). -/
def State.csLevel (s : State) : Bool :=
  match s.cs with
  | .asserted => Config.csActiveLevel
  | .deasserted => !Config.csActiveLevel

end Sys2Proof.Machine
end

