-- ==== Sys2Proof/Machine/Operands.lean ====
section
/-! DEFINITION. Operand assembly: the field codec, the multiplexer and demultiplexer, and the frame functions
(40_field_codec.md). All are pure: no state is read or written (R100). -/

namespace Sys2Proof.Machine

/-! ### Encoders (40_field_codec.md R101 to R106, R121) -/

/-- The data byte with tens digit `v div 10` at bit 4 and ones digit `v mod 10` (30_encoding.md R65). -/
def packBcd (v : Nat) : Byte := (BitVec.ofNat 8 (v / 10) <<< 4) ||| BitVec.ofNat 8 (v % 10)

/-- ENC.SEC (R101). -/
def encSec (s : Nat) : Byte := if s ≤ 59 then packBcd s else Config.encOutside .sec s

/-- ENC.MIN (R102). -/
def encMin (m : Nat) : Byte := if m ≤ 59 then packBcd m else Config.encOutside .min m

/-- The hour's tens digit re-mapped through the non-linear rule (R103). -/
def hourCode (tens : Nat) : BitVec 2 :=
  match tens with
  | 2 => 0b10#2
  | 1 => 0b01#2
  | _ => 0b00#2

/-- ENC.HOUR (R103). -/
def encHour (h : Nat) : Byte :=
  if h ≤ 23 then ((hourCode (h / 10)).setWidth 8 <<< 4) ||| BitVec.ofNat 8 (h % 10) else Config.encOutside .hour h

/-- ENC.DAY (R104). -/
def encDay (d : Nat) : Byte := if 1 ≤ d ∧ d ≤ 31 then packBcd d else Config.encOutside .day d

/-- ENC.MON (R105). -/
def encMon (mo : Nat) : Byte := if 1 ≤ mo ∧ mo ≤ 12 then packBcd mo else Config.encOutside .mon mo

/-- The year reduced to two digits, by the reading YEAR_OVERFLOW names (R106; 30_encoding.md R67). -/
def reduceYear (y : Nat) : Nat :=
  match Config.yearOverflow with
  | .mod100 => (y - Config.yearBase) % Config.yearMod

/-- ENC.YEAR (R106). -/
def encYear (y : Nat) : Byte := if Config.yearBase ≤ y then packBcd (reduceYear y) else Config.encOutside .year y

/-! ### Decoders (40_field_codec.md R107 to R112), total on every byte (R120) -/

/-- The ones value `b[3:0]` at face value (30_encoding.md R68). -/
def onesOf (b : Byte) : Nat := (b.extractLsb' 0 4).toNat

/-- DEC.SEC (R107). -/
def decSec (b : Byte) : Nat := (b.extractLsb' 4 3).toNat * 10 + onesOf b

/-- DEC.MIN (R108). -/
def decMin (b : Byte) : Nat := (b.extractLsb' 4 3).toNat * 10 + onesOf b

/-- The tens value of an hour code: 0b10 gives 20, 0b01 gives 10, anything else 0 (R109). -/
def hourTens (code : BitVec 2) : Nat := if code = 0b10#2 then 20 else if code = 0b01#2 then 10 else 0

/-- DEC.HOUR (R109). -/
def decHour (b : Byte) : Nat := hourTens (b.extractLsb' 4 2) + onesOf b

/-- DEC.DAY (R110). -/
def decDay (b : Byte) : Nat := (b.extractLsb' 4 2).toNat * 10 + onesOf b

/-- DEC.MON (R111). -/
def decMon (b : Byte) : Nat := (b.extractLsb' 4 1).toNat * 10 + onesOf b

/-- DEC.YEAR (R112). -/
def decYear (b : Byte) : Nat := Config.yearBase + (b.extractLsb' 4 4).toNat * 10 + onesOf b

/-! ### Multiplexer and demultiplexer (40_field_codec.md R113, R114) -/

/-- ENC.MUX (R113), the field named in place of its index: index 3 and 7 have no arm. -/
def encMux (f : Field) (t : CivilTime) : Byte :=
  match f with
  | .sec => encSec t.second
  | .min => encMin t.minute
  | .hour => encHour t.hour
  | .day => encDay t.day
  | .mon => encMon t.month
  | .year => encYear t.year

/-- DEC.DEMUX (R114). -/
def decDemux (f : Field) (b : Byte) (t : CivilTime) : CivilTime :=
  match f with
  | .sec => { t with second := decSec b }
  | .min => { t with minute := decMin b }
  | .hour => { t with hour := decHour b }
  | .day => { t with day := decDay b }
  | .mon => { t with month := decMon b }
  | .year => { t with year := decYear b }

/-! ### Frame functions (40_field_codec.md R115, R116) -/

/-- ENCODE_FRAME (R115): slots 0, 1, 2, 4, 5, 6 filled, slot 3 without a value. -/
def encodeFrame (t : CivilTime) : Frame where
  sec  := some (encMux .sec t)
  min  := some (encMux .min t)
  hour := some (encMux .hour t)
  dow  := none
  day  := some (encMux .day t)
  mon  := some (encMux .mon t)
  year := some (encMux .year t)

/-- The first of the six slots in index order that holds no value. -/
def Frame.firstMissing (F : Frame) : SeqIndex :=
  if F.sec.isNone then 0#3 else if F.min.isNone then 1#3 else if F.hour.isNone then 2#3
  else if F.day.isNone then 4#3 else if F.mon.isNone then 5#3 else 6#3

/-- DECODE_FRAME (R116): F[3] is not read; a read of a slot without a value is a model fault (10_state.md R35). -/
def decodeFrame (F : Frame) : Except Fault CivilTime :=
  match F with
  | ⟨some sec, some min, some hour, _, some day, some mon, some year⟩ =>
    .ok { year := decYear year, month := decMon mon, day := decDay day, hour := decHour hour, minute := decMin min,
          second := decSec sec }
  | F => .error (.slotWithoutValue F.firstMissing)

end Sys2Proof.Machine
end

