-- ==== Sys2Proof/Machine/Sequencer.lean ====
section
/-! DEFINITION. The sequencer: host requests, the bytes of the transaction due, the advance of `idx`, the ends of the
three operations, and the placing of one transaction for the host's question (42_sequences.md R160 to R167). -/

namespace Sys2Proof.Machine

/-- `next(i)` (42_sequences.md R163): i + 1, but 4 after 2; `none` is "end". Index 3 and 7 are never reached; they end
(log 15). -/
def nextIdx (i : SeqIndex) : Option SeqIndex :=
  match i.toNat with
  | 0 => some 1#3
  | 1 => some 2#3
  | 2 => some 4#3
  | 4 => some 5#3
  | 5 => some 6#3
  | _ => none

/-- Begin INIT (R160): neither the frame nor `idx` is touched. -/
def State.beginInit (s : State) : State := { s with activity := .transacting .init }

/-- Begin SET_DATETIME (R161) in the form `F <- ENCODE_FRAME(t)`, which the rule allows; `idx` starts at 0 (R163). -/
def State.beginSet (t : CivilTime) (s : State) : State :=
  { s with activity := .transacting .set, idx := 0#3, frame := encodeFrame t }

/-- Begin READ_DATETIME (R162): every slot is without a value (10_state.md R23); `idx` starts at 0 (R163). -/
def State.beginRead (s : State) : State :=
  { s with activity := .transacting .read, idx := 0#3, frame := Frame.empty }

/-- A host request (R166): it begins its operation while `busy` is false and has no step while `busy` is true. No
operation tests `inited` (R167). -/
def request (r : HostRequest) (s : State) : Result :=
  if s.busy then .refused (.requestWhileBusy r)
  else
    match r with
    | .init => .next s.beginInit
    | .setDatetime t => .next (s.beginSet t)
    | .readDatetime => .next s.beginRead

/-- The idle block takes the host's next request; with none it does nothing (70_reset_and_hazards.md R201). -/
def idleStep (s : State) : Result :=
  match s.requests with
  | [] => .next s
  | r :: rest => request r { s with requests := rest }

/-- The two bytes of the transaction due (42_sequences.md R160 to R162): the control write, the write of `F[idx]`, or
the read of index `idx` with the dummy byte. A slot without a value is a model fault (10_state.md R35). -/
def fetch (op : Op) (s : State) : Except Fault (List Byte) :=
  match op with
  | .init => .ok [Config.ctrlWaddr, Config.ctrlValue]
  | .set =>
    match s.frame.get s.idx with
    | some v => .ok [writeAddress (s.idx.setWidth 7), v]
    | none => .error (.slotWithoutValue s.idx)
  | .read => .ok [readAddress (s.idx.setWidth 7), Config.dummy]

/-- The end of SET_DATETIME and READ_DATETIME: `busy` is false and the frame is dead (R161, R162; 10_state.md R23;
log 16). -/
def State.complete (s : State) : State := { s with activity := .idle, frame := Frame.empty }

/-- What follows a completed transaction of an operation (R160 to R163). -/
def State.advance (op : Op) (s : State) : State :=
  match op with
  | .init => { s with activity := .settling }
  | .set =>
    match nextIdx s.idx with
    | some j => { s with idx := j }
    | none => s.complete
  | .read =>
    match nextIdx s.idx with
    | some j => { s with idx := j }
    | none => { s with activity := .decoding }

/-- After exec: a transaction that completed is followed by the advance; one whose transfer never returned leaves the
block where it is, chip-select asserted (60_exceptions.md R188). -/
def afterExec (op : Op) (o : Result) : Result :=
  match o with
  | .next t =>
    match t.cs with
    | .asserted => .next t
    | .deasserted => .next (t.advance op)
  | .fault f => .fault f
  | .refused r => .refused r

/-- The end of INIT (R160): `Wait(10)`, then `inited` and not `busy`. -/
def settleStep (s : State) : Result :=
  .next { s.wait Config.settle with inited := true, activity := .idle }

/-- The end of READ_DATETIME (R162): DECODE_FRAME, and the result goes to the host. -/
def decodeStep (s : State) : Result :=
  match decodeFrame s.frame with
  | .ok t => .next { s.complete with returned := s.returned ++ [t] }
  | .error f => .fault f

/-- The sequencer about to write v to the register of a field. -/
def State.dueWrite (f : Field) (v : Byte) (s : State) : State :=
  { s with cs := .deasserted, activity := .transacting .set, idx := f.index, frame := s.frame.set f v }

/-- The sequencer about to read the register of a field. -/
def State.dueRead (f : Field) (s : State) : State :=
  { s with cs := .deasserted, activity := .transacting .read, idx := f.index }

/-- The sequencer about to run one transaction (log 14). -/
def State.due (i : Instr) (s : State) : State :=
  match i with
  | .wrSec v => s.dueWrite .sec v
  | .wrMin v => s.dueWrite .min v
  | .wrHour v => s.dueWrite .hour v
  | .wrDay v => s.dueWrite .day v
  | .wrMon v => s.dueWrite .mon v
  | .wrYear v => s.dueWrite .year v
  | .rdSec => s.dueRead .sec
  | .rdMin => s.dueRead .min
  | .rdHour => s.dueRead .hour
  | .rdDay => s.dueRead .day
  | .rdMon => s.dueRead .mon
  | .rdYear => s.dueRead .year
  | .wrCtrl => { s with cs := .deasserted, activity := .transacting .init }

/-- The state whose next step runs the transaction of a table word. A word that is none of the thirteen cannot be
formed by the sequencer; it stands at index 7, which no transaction has, and the step refuses it (20_memory.md R49;
log 15). -/
def State.placeWord (s : State) (nbits w : Nat) : State :=
  match decodeTableWord nbits w with
  | some i => s.due i
  | none => { s with cs := .deasserted, activity := .transacting .read, idx := 7#3 }

end Sys2Proof.Machine
end

