-- ==== Sys2Proof/Machine/Step.lean ====
section
/-! DEFINITION. One step of the machine: a transaction, or one of the sequencer's own steps (log 9). -/

namespace Sys2Proof.Machine

/-- Fetch, decode and run the transaction due. -/
def transactionStep (op : Op) (s : State) : Host.Outcome State Fault Refusal :=
  match fetch op s with
  | .error f => .fault f
  | .ok bytes =>
    match decode bytes with
    | .error why => .refused (.neverIssued why)
    | .ok i => afterExec op (exec i s)

/-- One step. Between steps chip-select is asserted only where a transfer never returned; that block stays as it is for
ever (60_exceptions.md R188; log 8). -/
def step (s : State) : Host.Outcome State Fault Refusal :=
  match s.cs with
  | .asserted => .next s
  | .deasserted =>
    match s.activity with
    | .idle => idleStep s
    | .transacting op => transactionStep op s
    | .settling => settleStep s
    | .decoding => decodeStep s

/-- `s` with the transaction of a table word due, so that the very next step runs exactly it (log 14). -/
def State.withFetchWord (s : State) (nbits w : Nat) : State := s.placeWord nbits w

end Sys2Proof.Machine
end

