-- ==== Sys2Proof/Safety.lean ====
section
/-! DEFINITION. What a safe run is: the language of the bus trace, the invariant of the machine, the state the spec's
pseudocode leaves after a transaction, and what the block's control depends on. -/

namespace Sys2Proof.Machine

/-! ### The bus trace's language (42_sequences.md R160 to R164; 20_memory.md R42, R43; 41_bus_transactions.md R149) -/

/-- What may follow while chip-select is released. -/
inductive Expect where
  /-- The first transaction of any operation. -/
  | anyOperation
  /-- The write of this index, inside SET_DATETIME. -/
  | writeOf (i : SeqIndex)
  /-- The read of this index, inside READ_DATETIME. -/
  | readOf (i : SeqIndex)
  /-- The settle delay, directly after WR.CTRL. -/
  | settleDelay
  deriving DecidableEq, Repr

/-- Where an observer of the bus stands. -/
inductive BusPhase where
  /-- Chip-select released. -/
  | released (e : Expect)
  /-- Chip-select asserted, nothing sent. -/
  | selected (e : Expect)
  /-- The address byte has been transferred. -/
  | addressed (a : Byte)
  /-- Both bytes have been transferred. -/
  | dataDone (a : Byte)
  deriving DecidableEq, Repr

/-- The address bytes that may come: an operation begins with WR.SEC, RD.SEC or WR.CTRL. -/
def Expect.allows (e : Expect) (a : Byte) : Bool :=
  match e with
  | .anyOperation => decide (a = 0x80#8) || decide (a = 0x00#8) || decide (a = 0x8E#8)
  | .writeOf i => decide (a = i.setWidth 8 + 0x80#8)
  | .readOf i => decide (a = i.setWidth 8)
  | .settleDelay => false

/-- What must follow the transaction with an address byte: the ascending order of 20_memory.md R52, then the end. -/
def Expect.afterAddress (a : Byte) : Expect :=
  if a = 0x80#8 then .writeOf 1#3 else if a = 0x81#8 then .writeOf 2#3 else if a = 0x82#8 then .writeOf 4#3
  else if a = 0x84#8 then .writeOf 5#3 else if a = 0x85#8 then .writeOf 6#3
  else if a = 0x00#8 then .readOf 1#3 else if a = 0x01#8 then .readOf 2#3 else if a = 0x02#8 then .readOf 4#3
  else if a = 0x04#8 then .readOf 5#3 else if a = 0x05#8 then .readOf 6#3
  else if a = 0x8E#8 then .settleDelay else .anyOperation

/-- One event observed; `none` where the block never sends it there. -/
def BusPhase.observe (p : BusPhase) (e : BusEvent) : Option BusPhase :=
  match p with
  | .released x =>
    match e with
    | .csOn => if x = .settleDelay then none else some (.selected x)
    | .wait n => if x = .settleDelay ∧ n = 10 then some (.released .anyOperation) else none
    | .xfer _ _ => none
    | .csOff => none
  | .selected x =>
    match e with
    | .xfer o _ => if x.allows o then some (.addressed o) else none
    | .csOn => none
    | .csOff => none
    | .wait _ => none
  | .addressed a =>
    match e with
    | .xfer o _ => if dataAllowed a o then some (.dataDone a) else none
    | .csOn => none
    | .csOff => none
    | .wait _ => none
  | .dataDone a =>
    match e with
    | .csOff => some (.released (Expect.afterAddress a))
    | .csOn => none
    | .xfer _ _ => none
    | .wait _ => none

/-- Where an observer stands after a trace. -/
def observeAll (p : Option BusPhase) (trace : List BusEvent) : Option BusPhase :=
  trace.foldl (fun q e => q.bind (fun r => r.observe e)) p

/-- Where an observer stands after a trace from reset. -/
def phaseOf (trace : List BusEvent) : Option BusPhase := observeAll (some (.released .anyOperation)) trace

/-- What the sequencer will do next, as an observer may expect it. -/
def State.expected (s : State) : Expect :=
  match s.activity with
  | .idle => .anyOperation
  | .transacting .init => .anyOperation
  | .transacting .set => if s.idx = 0#3 then .anyOperation else .writeOf s.idx
  | .transacting .read => if s.idx = 0#3 then .anyOperation else .readOf s.idx
  | .settling => .settleDelay
  | .decoding => .anyOperation

/-- The address byte of the transaction due. -/
def State.dueAddress (s : State) : Byte :=
  match s.activity with
  | .transacting .init => 0x8E#8
  | .transacting .set => s.idx.setWidth 8 + 0x80#8
  | _ => s.idx.setWidth 8

/-- The trace is one the block may make, and it stands where the state says (10_state.md R28; 41_bus_transactions.md
R149; 60_exceptions.md R188). -/
def State.traceLegal (s : State) : Bool :=
  match s.cs with
  | .deasserted => decide (phaseOf s.trace = some (.released s.expected))
  | .asserted =>
    decide (phaseOf s.trace = some (.selected s.expected)) || decide (phaseOf s.trace = some (.addressed s.dueAddress))

/-! ### The invariant -/

/-- A slot that holds a value. -/
def Frame.filled (F : Frame) (i : SeqIndex) : Bool := (F.get i).isSome

/-- The frame and `idx` fit the operation in progress (10_state.md R22, R23, R27; 42_sequences.md R163): outside
SET_DATETIME and READ_DATETIME no slot has a value; SET_DATETIME holds all six; READ_DATETIME those below `idx`. -/
def State.frameFits (s : State) : Bool :=
  match s.activity with
  | .idle | .transacting .init | .settling => decide (s.frame = Frame.empty)
  | .transacting .set => Config.fieldIdx.contains s.idx && Config.fieldIdx.all (fun i => s.frame.filled i)
  | .transacting .read =>
    Config.fieldIdx.contains s.idx && Config.fieldIdx.all (fun i => s.frame.filled i == decide (i < s.idx))
  | .decoding => Config.fieldIdx.all (fun i => s.frame.filled i)

/-- Chip-select is asserted between steps only inside a transaction, so only while busy (10_state.md R28;
60_exceptions.md R188). -/
def State.selectFits (s : State) : Bool :=
  match s.cs, s.activity with
  | .deasserted, _ => true
  | .asserted, .transacting _ => true
  | .asserted, _ => false

/-- The invariant of the machine. -/
structure State.Inv (s : State) : Prop where
  /-- The register image is in its canonical form. -/
  cells  : s.cells.wf = true
  /-- F[3] holds no value (10_state.md R22). -/
  dow    : s.frame.dow = none
  /-- Frame and `idx` fit the operation. -/
  frame  : s.frameFits = true
  /-- Chip-select fits the operation. -/
  select : s.selectFits = true
  /-- The trace is legal and stands where the state says. -/
  trace  : s.traceLegal = true

/-! ### The states the pseudocode leaves (41_bus_transactions.md R130, R131) -/

/-- What a completed transaction leaves of the block and the bus: the four events, two answers taken, the pointer
moved. -/
def State.afterTransaction (addr data sim : Byte) (s : State) : State :=
  { s with
    cs          := .deasserted
    trace       := s.trace ++ [.csOn, .xfer addr (s.answer 0 0x00#8), .xfer data (s.answer 1 sim), .csOff]
    answersLeft := s.answersLeft.map (· - 2)
    draws       := s.draws + 2
    pointer     := Config.pointerAfter (s.draws + 2) }

/-- The state after a completed REG_WRITE(a, v), a below 0x80. -/
def State.afterWrite (a : Nat) (v : Byte) (s : State) : State :=
  { s.afterTransaction (BitVec.ofNat 8 (a + 0x80)) v 0x00#8 with
    cells    := s.cells.write a v
    unlocked := s.unlocked || decide (a = 0x0E) }

/-- The state after a completed `F[i] <- REG_READ(i)`, i the index of field f: the byte of the second transfer stands
in slot i. -/
def State.afterRead (f : Field) (s : State) : State :=
  { s.afterTransaction (BitVec.ofNat 8 f.index.toNat) 0x00#8 (s.cells.read f.index.toNat) with
    frame := s.frame.set f (s.answer 1 (s.cells.read f.index.toNat)) }

/-- The bus events of one completed transaction, as an observer writes them (41_bus_transactions.md R130, R131). -/
def transactionEvents (addr i0 data i1 : Byte) : List BusEvent := [.csOn, .xfer addr i0, .xfer data i1, .csOff]

/-- The events of the write of byte v to index a as the k-th transaction from now. -/
def State.writeEvents (k a : Nat) (v : Byte) (s : State) : List BusEvent :=
  transactionEvents (BitVec.ofNat 8 (a + 0x80)) (s.answer (2 * k) 0x00#8) v (s.answer (2 * k + 1) 0x00#8)

/-- The byte the read of index a captures as the k-th transaction from now. -/
def State.readByte (k a : Nat) (s : State) : Byte := s.answer (2 * k + 1) (s.cells.read a)

/-- The events of the read of index a as the k-th transaction from now. -/
def State.readEvents (k a : Nat) (s : State) : List BusEvent :=
  transactionEvents (BitVec.ofNat 8 a) (s.answer (2 * k) 0x00#8) 0x00#8 (s.readByte k a)

/-- The register a transaction stores to, by its index; a read stores to none (41_bus_transactions.md R147). -/
def storesTo : Instr → Option RegIndex
  | .wrSec _ => some 0#7
  | .wrMin _ => some 1#7
  | .wrHour _ => some 2#7
  | .wrDay _ => some 4#7
  | .wrMon _ => some 5#7
  | .wrYear _ => some 6#7
  | .wrCtrl => some Config.ctrlIndex
  | .rdSec | .rdMin | .rdHour | .rdDay | .rdMon | .rdYear => none

/-- The slot a transaction captures into; a write captures into none (41_bus_transactions.md R138 to R143). -/
def capturesInto : Instr → Option Field
  | .rdSec => some .sec
  | .rdMin => some .min
  | .rdHour => some .hour
  | .rdDay => some .day
  | .rdMon => some .mon
  | .rdYear => some .year
  | .wrSec _ | .wrMin _ | .wrHour _ | .wrDay _ | .wrMon _ | .wrYear _ | .wrCtrl => none

/-- Is this event a transfer? For counting (42_sequences.md R164). -/
def BusEvent.isXfer : BusEvent → Bool
  | .xfer _ _ => true
  | .csOn | .csOff | .wait _ => false

/-! ### What control depends on -/

/-- A bus event with the received byte left out: what the block itself did. -/
inductive SentEvent where
  | csOn
  | csOff
  | sent (b : Byte)
  | wait (n : Nat)
  deriving DecidableEq, Repr

/-- The block's own part of an event. -/
def BusEvent.sentPart : BusEvent → SentEvent
  | .csOn => .csOn
  | .csOff => .csOff
  | .xfer o _ => .sent o
  | .wait n => .wait n

/-- Which slots of a frame hold a value. -/
def Frame.shape (F : Frame) : List Bool :=
  [F.sec.isSome, F.min.isSome, F.hour.isSome, F.dow.isSome, F.day.isSome, F.mon.isSome, F.year.isSome]

/-- Two states that differ only in what the peripheral holds and answers: same control state, same sent bytes, same
slots filled, and the same frame where it is about to be sent. -/
structure SameControl (s t : State) : Prop where
  cs          : s.cs = t.cs
  activity    : s.activity = t.activity
  idx         : s.idx = t.idx
  requests    : s.requests = t.requests
  answersLeft : s.answersLeft = t.answersLeft
  inited      : s.inited = t.inited
  sent        : s.trace.map BusEvent.sentPart = t.trace.map BusEvent.sentPart
  shape       : s.frame.shape = t.frame.shape
  toSend      : s.activity = .transacting .set → s.frame = t.frame

/-- The outcome with one more change to its next state. -/
def mapNext (f : State → State) (o : Result) : Result :=
  match o with
  | .next t => .next (f t)
  | .fault r => .fault r
  | .refused r => .refused r

end Sys2Proof.Machine
end

