-- ==== Sys2Proof/Certificates/Slice0/Obligations.lean ====
section
/-! DEFINITION. The statements about the model, for the provers. Each docstring names the rule or section of spec/ it
formalises. A free value (a bus answer, an encode outside its domain, the chip's register pointer) is an opaque
constant: a statement that mentions one holds whatever it is. -/

open Sys2Proof Sys2Proof.Machine

/-! ### The codec -/

/-- 40_field_codec.md R101, R102, R104, R105: the encoders whose digits are packed plainly, on their domains. Ones digit
in bits 3:0, tens digit in the tens field, the bits above zero, nothing above the largest result. -/
def Obligations.PlainEncodersPackDecimalDigits : Prop :=
  (∀ s, s ≤ 59 → (encSec s).toNat = s / 10 * 16 + s % 10 ∧ (encSec s).extractLsb' 0 4 = BitVec.ofNat 4 (s % 10)
      ∧ (encSec s).extractLsb' 4 3 = BitVec.ofNat 3 (s / 10) ∧ (encSec s).extractLsb' 7 1 = 0 ∧ encSec s ≤ 0x59#8)
  ∧ (∀ m, m ≤ 59 → (encMin m).toNat = m / 10 * 16 + m % 10 ∧ (encMin m).extractLsb' 0 4 = BitVec.ofNat 4 (m % 10)
      ∧ (encMin m).extractLsb' 4 3 = BitVec.ofNat 3 (m / 10) ∧ (encMin m).extractLsb' 7 1 = 0 ∧ encMin m ≤ 0x59#8
      ∧ encMin m = encSec m)
  ∧ (∀ d, 1 ≤ d → d ≤ 31 → (encDay d).toNat = d / 10 * 16 + d % 10 ∧ (encDay d).extractLsb' 0 4 = BitVec.ofNat 4 (d % 10)
      ∧ (encDay d).extractLsb' 4 2 = BitVec.ofNat 2 (d / 10) ∧ (encDay d).extractLsb' 6 2 = 0
      ∧ 0x01#8 ≤ encDay d ∧ encDay d ≤ 0x31#8)
  ∧ (∀ m, 1 ≤ m → m ≤ 12 → (encMon m).toNat = m / 10 * 16 + m % 10 ∧ (encMon m).extractLsb' 0 4 = BitVec.ofNat 4 (m % 10)
      ∧ (encMon m).extractLsb' 4 1 = BitVec.ofNat 1 (m / 10) ∧ (encMon m).extractLsb' 5 3 = 0 ∧ encMon m ≤ 0x12#8)

/-- 40_field_codec.md R121 (the spec's decision D3): outside its domain the result of every encoder is a free byte. That
the byte is a function of the field and the operand is the model's reading of R100 (log 7). Nothing is signalled:
the multiplexer gives it on like any byte, and each of the other fields keeps its own. -/
def Obligations.EncodersOutsideTheirDomainsAreFree : Prop :=
  (∀ s, 59 < s → encSec s = Config.encOutside .sec s)
  ∧ (∀ m, 59 < m → encMin m = Config.encOutside .min m)
  ∧ (∀ h, 23 < h → encHour h = Config.encOutside .hour h)
  ∧ (∀ d, d = 0 ∨ 31 < d → encDay d = Config.encOutside .day d)
  ∧ (∀ m, m = 0 ∨ 12 < m → encMon m = Config.encOutside .mon m)
  ∧ (∀ y, y < 1900 → encYear y = Config.encOutside .year y)
  ∧ (∀ t u : CivilTime, u.inEncodeDomain = true →
      encMux .sec { t with second := u.second } = packBcd u.second
      ∧ encMux .min { t with minute := u.minute } = packBcd u.minute
      ∧ encMux .hour { t with hour := u.hour } = packBcd u.hour
      ∧ encMux .day { t with day := u.day } = packBcd u.day
      ∧ encMux .mon { t with month := u.month } = packBcd u.month
      ∧ encMux .year { t with year := u.year } = packBcd ((u.year - 1900) % 100))

/-- 40_field_codec.md R103: the hour's tens digit is re-mapped to a code in bits 5:4, bits 7:6 are zero, code 0b11#2 is
never produced, 0x23 is the largest result. -/
def Obligations.HourEncoderUsesTheTensCode : Prop :=
  (∀ h, h ≤ 23 →
    (encHour h).extractLsb' 4 2 = (if h / 10 = 2 then 0b10#2 else if h / 10 = 1 then 0b01#2 else 0b00#2)
    ∧ (encHour h).extractLsb' 0 4 = BitVec.ofNat 4 (h % 10) ∧ (encHour h).extractLsb' 6 2 = 0
    ∧ (encHour h).extractLsb' 4 2 ≠ 0b11#2 ∧ encHour h ≤ 0x23#8 ∧ (encHour h).toNat = h / 10 * 16 + h % 10)
  ∧ encHour 20 = 0x20#8 ∧ encHour 10 = 0x10#8 ∧ encHour 5 = 0x05#8

/-- 40_field_codec.md R106: the year less 1900, modulo 100, as two decimal digits; both nibbles at most 9. -/
def Obligations.YearEncoderKeepsTwoDigits : Prop :=
  (∀ y, 1900 ≤ y →
    (encYear y).toNat = (y - 1900) % 100 / 10 * 16 + (y - 1900) % 100 % 10
    ∧ (encYear y).extractLsb' 4 4 ≤ 9 ∧ (encYear y).extractLsb' 0 4 ≤ 9 ∧ encYear y ≤ 0x99#8)
  ∧ encYear 2023 = 0x23#8 ∧ encYear 1900 = 0x00#8 ∧ encYear 2000 = 0x00#8 ∧ encYear 1999 = 0x99#8 ∧ encYear 2099 = 0x99#8
  ∧ encYear 2100 = 0x00#8

/-- 40_field_codec.md R107, R108, R110, R111, R112: the linear decoders, on every byte, with their largest results. -/
def Obligations.LinearDecodersAddTensAndOnes : Prop :=
  ∀ b : Byte,
    (decSec b = b.toNat / 16 % 8 * 10 + b.toNat % 16 ∧ decSec b ≤ 85)
    ∧ (decMin b = b.toNat / 16 % 8 * 10 + b.toNat % 16 ∧ decMin b ≤ 85)
    ∧ (decDay b = b.toNat / 16 % 4 * 10 + b.toNat % 16 ∧ decDay b ≤ 45)
    ∧ (decMon b = b.toNat / 16 % 2 * 10 + b.toNat % 16 ∧ decMon b ≤ 25)
    ∧ (decYear b = 1900 + b.toNat / 16 * 10 + b.toNat % 16 ∧ 1900 ≤ decYear b ∧ decYear b ≤ 2065)

/-- 40_field_codec.md R109, R123: the hour's tens field is a code: 0b10#2 gives 20, 0b01#2 gives 10, 0b00#2 and 0b11#2
give 0; off code 0b11#2 it agrees with a linear rule; the day's two bits are linear at 3; decode inverts every hour's
encoding. -/
def Obligations.HourDecoderIsNotLinear : Prop :=
  (∀ b : Byte,
    decHour b = (if b.extractLsb' 4 2 = 0b10#2 then 20 else if b.extractLsb' 4 2 = 0b01#2 then 10 else 0) + b.toNat % 16
    ∧ decHour b ≤ 35
    ∧ (b.extractLsb' 4 2 ≠ 0b11#2 → decHour b = (b.extractLsb' 4 2).toNat * 10 + b.toNat % 16)
    ∧ (b.extractLsb' 4 2 = 0b11#2 → decHour b = b.toNat % 16 ∧ decDay b = 30 + b.toNat % 16))
  ∧ (∀ h, h ≤ 23 → decHour (encHour h) = h)

/-- 30_encoding.md R64: the bits above the tens field are ignored on decode (two bytes that agree on the ones nibble
and the tens field decode alike) and written as 0 on encode of a time in the encoders' domain. -/
def Obligations.BitsAboveTheTensFieldAreIgnoredAndWrittenZero : Prop :=
  (∀ b c : Byte, b &&& 0x7F#8 = c &&& 0x7F#8 → decSec b = decSec c ∧ decMin b = decMin c)
  ∧ (∀ b c : Byte, b &&& 0x3F#8 = c &&& 0x3F#8 → decHour b = decHour c ∧ decDay b = decDay c)
  ∧ (∀ b c : Byte, b &&& 0x1F#8 = c &&& 0x1F#8 → decMon b = decMon c)
  ∧ (∀ t : CivilTime, t.inEncodeDomain = true →
      encMux .sec t &&& 0x80#8 = 0 ∧ encMux .min t &&& 0x80#8 = 0 ∧ encMux .hour t &&& 0xC0#8 = 0
      ∧ encMux .day t &&& 0xC0#8 = 0 ∧ encMux .mon t &&& 0xE0#8 = 0)

/-- 40_field_codec.md R113, R114: the multiplexer selects the field and the rule of an index; the demultiplexer routes
the decoded value to that field and leaves the other five. -/
def Obligations.MultiplexerAndDemultiplexerSelectByField : Prop :=
  ∀ (t : CivilTime) (b : Byte),
    encMux .sec t = encSec t.second ∧ encMux .min t = encMin t.minute ∧ encMux .hour t = encHour t.hour
    ∧ encMux .day t = encDay t.day ∧ encMux .mon t = encMon t.month ∧ encMux .year t = encYear t.year
    ∧ decDemux .sec b t = ⟨t.year, t.month, t.day, t.hour, t.minute, decSec b⟩
    ∧ decDemux .min b t = ⟨t.year, t.month, t.day, t.hour, decMin b, t.second⟩
    ∧ decDemux .hour b t = ⟨t.year, t.month, t.day, decHour b, t.minute, t.second⟩
    ∧ decDemux .day b t = ⟨t.year, t.month, decDay b, t.hour, t.minute, t.second⟩
    ∧ decDemux .mon b t = ⟨t.year, decMon b, t.day, t.hour, t.minute, t.second⟩
    ∧ decDemux .year b t = ⟨decYear b, t.month, t.day, t.hour, t.minute, t.second⟩

/-- 40_field_codec.md R115, R116: ENCODE_FRAME fills the six slots with the multiplexer's bytes and never slot 3;
DECODE_FRAME of a filled frame is the six decoders on their slots, whatever slot 3 holds, and the same as the
demultiplexer applied at every index. -/
def Obligations.FrameFunctionsWorkSlotBySlot : Prop :=
  (∀ (t : CivilTime) (f : Field), (encodeFrame t).get f.index = some (encMux f t) ∧ (encodeFrame t).get Config.skipIdx = none)
  ∧ (∀ (b0 b1 b2 b4 b5 b6 : Byte) (b3 : Option Byte) (t : CivilTime),
      decodeFrame ⟨some b0, some b1, some b2, b3, some b4, some b5, some b6⟩
        = .ok { year := decYear b6, month := decMon b5, day := decDay b4, hour := decHour b2, minute := decMin b1,
                second := decSec b0 }
      ∧ decodeFrame ⟨some b0, some b1, some b2, b3, some b4, some b5, some b6⟩
        = .ok (decDemux .sec b0 (decDemux .min b1 (decDemux .hour b2 (decDemux .day b4 (decDemux .mon b5
            (decDemux .year b6 t)))))))

/-- 10_state.md R35 (the spec's decision D9; log 1): a decode of a frame one of whose six slots holds no value is the
model fault that names such a slot; F[3] is never the cause. -/
def Obligations.DecodingAnUnfilledFrameIsAModelFault : Prop :=
  ∀ F : Frame, (∃ f : Field, F.get f.index = none) →
    ∃ g : Field, F.get g.index = none ∧ decodeFrame F = .error (.slotWithoutValue g.index)
      ∧ decodeStep { State.reset with frame := F } = .fault (.slotWithoutValue g.index)

/-- 40_field_codec.md R117: the round trip from a civil time to a frame and back. -/
def Obligations.CivilTimeSurvivesTheFrame : Prop :=
  ∀ t : CivilTime, t.natural = true → t.year ≤ 1999 → decodeFrame (encodeFrame t) = .ok t

/-- 40_field_codec.md R118: the round trip from an encoded frame to a civil time and back, for every year of 1900 or
more, and that it fails off the encoder's image. -/
def Obligations.EncodedFrameSurvivesTheCivilTime : Prop :=
  (∀ t : CivilTime, t.inEncodeDomain = true →
    ∃ u, decodeFrame (encodeFrame t) = .ok u ∧ encodeFrame u = encodeFrame t ∧ 1900 ≤ u.year ∧ u.year ≤ 1999)
  ∧ encSec (decSec 0xC5#8) ≠ 0xC5#8

/-- 40_field_codec.md R119, 70_reset_and_hazards.md R208: the century is lost on encode. -/
def Obligations.CenturyIsLostOnEncode : Prop :=
  ∀ y, 1900 ≤ y → decYear (encYear y) = 1900 + (y - 1900) % 100 ∧ (decYear (encYear y) = y ↔ y ≤ 1999)

/-- 10_state.md R24 (what decode can return) and R25 (widths), 40_field_codec.md R122: a decoded time fits its widths
and its ranges, whatever the bytes. -/
def Obligations.DecodedTimeFitsItsWidths : Prop :=
  ∀ (F : Frame) (t : CivilTime), decodeFrame F = .ok t →
    t.fits = true ∧ 1900 ≤ t.year ∧ t.year ≤ 2065 ∧ t.month ≤ 25 ∧ t.day ≤ 45 ∧ t.hour ≤ 35 ∧ t.minute ≤ 85
      ∧ t.second ≤ 85

/-! ### Encoding -/

/-- 30_encoding.md R70: the words of the opcode map, written out from its table, decode to the transactions they stand
for, and the two words of index 3 to none. -/
def Obligations.OpcodeMapWordsDecode : Prop :=
  decode (TransactionWord.bytes 0b1000000001000101#16) = .ok (.wrSec 0x45#8)
  ∧ decode (TransactionWord.bytes 0b1000001000100011#16) = .ok (.wrHour 0x23#8)
  ∧ decode (TransactionWord.bytes 0b1000011010011001#16) = .ok (.wrYear 0x99#8)
  ∧ decode (TransactionWord.bytes 0b0000000000000000#16) = .ok .rdSec
  ∧ decode (TransactionWord.bytes 0b0000011000000000#16) = .ok .rdYear
  ∧ decode (TransactionWord.bytes 0b1000111001100000#16) = .ok .wrCtrl
  ∧ decode (TransactionWord.bytes 0b0000001100000000#16) = .error (.addressNeverIssued 0x03#8)
  ∧ decode (TransactionWord.bytes 0b1000001100000000#16) = .error (.addressNeverIssued 0x83#8)

/-- 30_encoding.md R70, R75: decode and encode agree in both directions: a byte sequence decodes to a transaction
exactly when it is that transaction's two bytes, at every value of the data byte. -/
def Obligations.DecodeAndEncodeAgree : Prop :=
  ∀ (bytes : List Byte) (i : Instr), i.wellFormed = true → (decode bytes = .ok i ↔ bytes = encode i)

/-- 30_encoding.md R70, R72, 20_memory.md R42: exactly the words with one of the thirteen address bytes and, for reads
and the control write, the fixed data half decode; every other word, and every sequence that is not two bytes, is
rejected. -/
def Obligations.OnlyTheThirteenTransactionsDecode : Prop :=
  (∀ w : TransactionWord, (∃ i, decode w.bytes = .ok i) ↔ w.issued = true)
  ∧ (∀ a d : Byte, a ∉ issuedAddresses → decode [a, d] = .error (.addressNeverIssued a))
  ∧ (∀ bytes : List Byte, bytes.length ≠ 2 → decode bytes = .error .notTwoBytes)

/-- 30_encoding.md R60, R61 and 20_memory.md R44: on the wire a transaction is its 16-bit word, bit 15 first: the
direction bit (1 for a write), the seven index bits, the eight data bits. -/
def Obligations.WireBitsAreTheWordMostSignificantFirst : Prop :=
  ∀ (i : Instr) (a d : Byte), encode i = [a, d] →
    (encode i).flatMap wireBits
      = [(storesTo i).isSome] ++ (List.range 7).map (fun k => a.getLsbD (6 - k)) ++ (List.range 8).map (fun k => d.getLsbD (7 - k))

/-! ### Transactions -/

/-- 41_bus_transactions.md section 2 (R130, R132 to R137): each date-time write completes: chip-select asserted, the
address byte index + 0x80, the byte as given, chip-select released; both returned bytes are dropped. The register
image takes the byte, the chip's pointer moves to the free value (log 3, 5), nothing else changes. -/
def Obligations.DateTimeWritesSendTheirByte : Prop :=
  ∀ (v : Byte) (s : State), s.cs = .deasserted → s.busAnswers 2 = true →
    exec (.wrSec v) s = .next (s.afterWrite 0 v)
    ∧ exec (.wrMin v) s = .next (s.afterWrite 1 v)
    ∧ exec (.wrHour v) s = .next (s.afterWrite 2 v)
    ∧ exec (.wrDay v) s = .next (s.afterWrite 4 v)
    ∧ exec (.wrMon v) s = .next (s.afterWrite 5 v)
    ∧ exec (.wrYear v) s = .next (s.afterWrite 6 v)

/-- 41_bus_transactions.md section 2 (R144): the control write sends 0x8E and 0x60 and completes; the chip is unlocked
(10_state.md R32; log 4); no delay is part of it. That the register image takes the byte and where the chip's pointer
goes are the model's choices (log 5, 3). -/
def Obligations.ControlWriteSendsItsFixedBytes : Prop :=
  ∀ s : State, s.cs = .deasserted → s.busAnswers 2 = true →
    exec .wrCtrl s = .next (s.afterWrite 0x0E 0x60#8)
    ∧ (s.afterWrite 0x0E 0x60#8).trace
        = s.trace ++ [.csOn, .xfer 0x8E#8 (s.answer 0 0x00#8), .xfer 0x60#8 (s.answer 1 0x00#8), .csOff]
    ∧ (s.afterWrite 0x0E 0x60#8).unlocked = true

/-- 41_bus_transactions.md section 3 (R131, R138 to R143): each read completes: chip-select asserted, the index as the
address byte, the dummy 0x00, chip-select released; the byte of the second transfer, whatever it is, stands in the slot
of the register; the byte of the first is dropped; nothing else changes but the chip's pointer (log 3). -/
def Obligations.DateTimeReadsCaptureTheAnswer : Prop :=
  ∀ s : State, s.cs = .deasserted → s.busAnswers 2 = true →
    exec .rdSec s = .next (s.afterRead .sec)
    ∧ exec .rdMin s = .next (s.afterRead .min)
    ∧ exec .rdHour s = .next (s.afterRead .hour)
    ∧ exec .rdDay s = .next (s.afterRead .day)
    ∧ exec .rdMon s = .next (s.afterRead .mon)
    ∧ exec .rdYear s = .next (s.afterRead .year)

/-- 41_bus_transactions.md R149: a transaction that ends has exactly two transfers between its `CS+` and its `CS-`,
they send its two bytes, and nothing is sent outside. -/
def Obligations.ChipSelectBracketsTwoTransfers : Prop :=
  ∀ (i : Instr) (s t : State), exec i s = .next t →
    s.cs = .deasserted
    ∧ (t.cs = .deasserted → ∃ a d i0 i1, encode i = [a, d]
        ∧ t.trace = s.trace ++ [.csOn, .xfer a i0, .xfer d i1, .csOff])

/-- The frame of every transaction, completed or not (41_bus_transactions.md sections 1 to 3): every register of the
image but the one stored to reads as before, every slot but the one captured into is as before, and `idx`, the
operation, `inited`, the host's requests and results, and (but for WR.CTRL) the chip's unlock state are unchanged. That
the far side keeps its other registers (log 5) and its unlock state (log 4) are the model's choices: 41_bus_transactions.md
R130 leaves to the peripheral what it does with the byte. -/
def Obligations.TransactionFrame : Prop :=
  ∀ (i : Instr) (s t : State), exec i s = .next t →
    (∀ b : Nat, (∀ a, storesTo i = some a → b ≠ a.toNat) → t.cells.read b = s.cells.read b)
    ∧ (∀ j : SeqIndex, (∀ f, capturesInto i = some f → j ≠ f.index) → t.frame.get j = s.frame.get j)
    ∧ (storesTo i ≠ some Config.ctrlIndex → t.unlocked = s.unlocked)
    ∧ t.idx = s.idx ∧ t.activity = s.activity ∧ t.inited = s.inited ∧ t.returned = s.returned
    ∧ t.requests = s.requests ∧ t.oracle = s.oracle

/-- A transaction whose first or second transfer never returns stays inside its assertion, the events so far in the
trace and no `CS-` (41_bus_transactions.md R130 and 60_exceptions.md R188 describe it). That exec answers such a state
(log 8), and that the chip's pointer, register image and unlock state stay as they are in it (log 3, 4, 5), are the
model's choices. -/
def Obligations.UnansweredTransactionStaysSelected : Prop :=
  ∀ (i : Instr) (s : State) (a d : Byte), s.cs = .deasserted → encode i = [a, d] →
    (s.answersLeft = some 0 → exec i s = .next { s with cs := .asserted, trace := s.trace ++ [.csOn] })
    ∧ (s.answersLeft = some 1 → exec i s = .next { s with
        cs := .asserted, trace := s.trace ++ [.csOn, .xfer a (s.answer 0 0x00#8)], answersLeft := some 0,
        draws := s.draws + 1 })

/-- The precondition of 41_bus_transactions.md R130 and R131: a transaction begun with chip-select asserted stops with
a model fault (the model's choice, log 13). -/
def Obligations.TransactionNeedsChipSelectReleased : Prop :=
  ∀ (i : Instr) (s : State), s.cs = .asserted → exec i s = .fault .chipSelectAlreadyAsserted

/-! ### The simulator oracle -/

/-- 20_memory.md R50, second half: under the simulator a completed write of v to index a performs `P[a] <- v`, a read
of index a returns `P[a]` and leaves P, and the other bytes returned are 0x00. -/
def Obligations.SimulatorIsAStaticRegisterFile : Prop :=
  ∀ (i : Instr) (s t : State) (a d : Byte), s.oracle = .simulator → s.cells.wf = true → encode i = [a, d] →
    exec i s = .next t → t.cs = .deasserted →
    (∀ r, storesTo i = some r → t.cells.read r.toNat = d
        ∧ t.trace = s.trace ++ [.csOn, .xfer a 0x00#8, .xfer d 0x00#8, .csOff])
    ∧ (∀ f, capturesInto i = some f → t.frame.get f.index = some (s.cells.read f.index.toNat) ∧ t.cells = s.cells
        ∧ t.trace = s.trace ++ [.csOn, .xfer a 0x00#8, .xfer 0x00#8 (s.cells.read f.index.toNat), .csOff])

/-- 70_reset_and_hazards.md R208, R202: under the simulator and after INIT (the premise R202 asks for), SET_DATETIME
of a time in the encoders' domain followed by READ_DATETIME returns that time with the year 1900 + (year - 1900)
mod 100. The grain of the steps and the list of requests are the model's (log 9, 10). -/
def Obligations.SetThenReadReturnsTheTimeWithoutItsCentury : Prop :=
  ∀ (s : State) (t : CivilTime) (rest : List HostRequest),
    s.oracle = .simulator → s.inited = true → s.cells.wf = true → s.cs = .deasserted → s.activity = .idle →
    s.busAnswers 24 = true → s.requests = .setDatetime t :: .readDatetime :: rest → t.inEncodeDomain = true →
    ∃ u, Sys2Proof.core.run 15 s = .next u ∧ u.busy = false ∧ u.requests = rest
      ∧ u.returned = s.returned ++ [{ t with year := 1900 + (t.year - 1900) % 100 }]

/-! ### The sequencer -/

/-- A step runs the decoded transaction (42_sequences.md R160 to R163): where a transaction is due and its bytes
decode to i, the step is exec of i, followed, when the transaction completed, by the advance of its operation. The
grain of a step is the model's (log 9). -/
def Obligations.StepRunsTheDecodedTransaction : Prop :=
  ∀ (s : State) (op : Op) (bytes : List Byte) (i : Instr), s.cs = .deasserted → s.activity = .transacting op →
    fetch op s = .ok bytes → decode bytes = .ok i →
    (∀ t, exec i s = .next t → t.cs = .deasserted → step s = .next (t.advance op))
    ∧ (∀ t, exec i s = .next t → t.cs = .asserted → step s = .next t)
    ∧ (∀ f, exec i s = .fault f → step s = .fault f)
    ∧ (∀ r, exec i s = .refused r → step s = .refused r)

/-- What is fetched: INIT's word is 0x8E 0x60; SET_DATETIME's is `idx + 0x80` and F[idx]; READ_DATETIME's is `idx` and
the dummy (42_sequences.md section 1). A slot without a value is the model fault of 10_state.md R35. (Log 1.) -/
def Obligations.FetchFormsTheWordOfTheOperation : Prop :=
  ∀ s : State,
    fetch .init s = .ok [0x8E#8, 0x60#8]
    ∧ (∀ v, s.frame.get s.idx = some v → fetch .set s = .ok [BitVec.ofNat 8 (s.idx.toNat + 0x80), v])
    ∧ (s.frame.get s.idx = none → fetch .set s = .error (.slotWithoutValue s.idx))
    ∧ fetch .read s = .ok [BitVec.ofNat 8 s.idx.toNat, 0x00#8]

/-- A transaction that cannot be formed stops the step by name: index 3 and 7, and a slot without a value
(30_encoding.md R71, R72 and 10_state.md R22, R35 ask a model for it). The names are the model's (log 1, 15). -/
def Obligations.IndexThreeAndSevenStopByName : Prop :=
  ∀ s : State, s.cs = .deasserted → s.idx = 3#3 ∨ s.idx = 7#3 →
    (s.activity = .transacting .read →
      step s = .refused (.neverIssued (.addressNeverIssued (BitVec.ofNat 8 s.idx.toNat))))
    ∧ (s.activity = .transacting .set → s.frame.dow = none → step s = .fault (.slotWithoutValue s.idx))

/-- 42_sequences.md R163: `next(i)` is i + 1, but 4 after 2, and ends after 6; from 0 it runs through FIELD_IDX. The
advance follows it in both operations, whatever the bytes. -/
def Obligations.IdxAdvancesInRegisterOrder : Prop :=
  nextIdx 0#3 = some 1#3 ∧ nextIdx 1#3 = some 2#3 ∧ nextIdx 2#3 = some 4#3 ∧ nextIdx 4#3 = some 5#3
  ∧ nextIdx 5#3 = some 6#3
  ∧ nextIdx 6#3 = none
  ∧ (∀ (t : CivilTime) (s : State), (s.beginSet t).idx = 0#3 ∧ s.beginRead.idx = 0#3)
  ∧ (∀ (s : State) (j : SeqIndex), nextIdx s.idx = some j →
      (s.advance .set).idx = j ∧ (s.advance .set).activity = s.activity
      ∧ (s.advance .read).idx = j ∧ (s.advance .read).activity = s.activity)
  ∧ (∀ s : State, s.idx = 6#3 → (s.advance .set).busy = false ∧ (s.advance .read).activity = .decoding)

/-- 42_sequences.md R160: INIT. The control write, then the settle delay after its `CS-`; `busy` is set until the
delay has run and only then `inited` is set; the frame and `idx` are not touched. The image, the pointer, the unlock
state and the grain of the steps are the model's (log 3, 4, 5, 9). -/
def Obligations.InitWritesControlThenSettles : Prop :=
  ∀ (s : State) (rest : List HostRequest), s.cs = .deasserted → s.activity = .idle → s.requests = .init :: rest →
    s.busAnswers 2 = true →
    (∃ t, Sys2Proof.core.run 2 s = .next t ∧ t.busy = true ∧ t.inited = s.inited ∧ t.cs = .deasserted)
    ∧ Sys2Proof.core.run 3 s = .next { s.afterWrite 0x0E 0x60#8 with
        requests := rest, inited := true, activity := .idle,
        trace := s.trace ++ [.csOn, .xfer 0x8E#8 (s.answer 0 0x00#8), .xfer 0x60#8 (s.answer 1 0x00#8), .csOff, .wait 10] }

/-- 42_sequences.md R161: SET_DATETIME. Six writes in the order second, minute, hour, day, month, year, each of the
multiplexer's byte, natural or not; then `busy` is false and the frame is dead (log 16). The image, the pointer and
the grain of the steps are the model's (log 3, 5, 9). -/
def Obligations.SetDatetimeWritesSixRegisters : Prop :=
  ∀ (s : State) (t : CivilTime) (rest : List HostRequest), s.cs = .deasserted → s.activity = .idle →
    s.requests = .setDatetime t :: rest → s.busAnswers 12 = true →
    Sys2Proof.core.run 7 s = .next { s with
      requests    := rest
      frame       := Frame.empty
      idx         := 6#3
      cells       := (((((s.cells.write 0 (encMux .sec t)).write 1 (encMux .min t)).write 2 (encMux .hour t)).write 4
                        (encMux .day t)).write 5 (encMux .mon t)).write 6 (encMux .year t)
      pointer     := Config.pointerAfter (s.draws + 12)
      answersLeft := s.answersLeft.map (· - 12)
      draws       := s.draws + 12
      trace       := s.trace ++ s.writeEvents 0 0 (encMux .sec t) ++ s.writeEvents 1 1 (encMux .min t)
                      ++ s.writeEvents 2 2 (encMux .hour t) ++ s.writeEvents 3 4 (encMux .day t)
                      ++ s.writeEvents 4 5 (encMux .mon t) ++ s.writeEvents 5 6 (encMux .year t) }

/-- 42_sequences.md R162: READ_DATETIME. Six reads in the same order, then the decode of the six captured bytes goes
to the host; the register image is left as it was. The pointer, the dead frame and the grain of the steps are the
model's (log 3, 9, 16). -/
def Obligations.ReadDatetimeReadsSixRegisters : Prop :=
  ∀ (s : State) (rest : List HostRequest), s.cs = .deasserted → s.activity = .idle →
    s.requests = .readDatetime :: rest → s.busAnswers 12 = true →
    Sys2Proof.core.run 8 s = .next { s with
      requests    := rest
      frame       := Frame.empty
      idx         := 6#3
      pointer     := Config.pointerAfter (s.draws + 12)
      answersLeft := s.answersLeft.map (· - 12)
      draws       := s.draws + 12
      returned    := s.returned ++ [{
        year := decYear (s.readByte 5 6), month := decMon (s.readByte 4 5), day := decDay (s.readByte 3 4),
        hour := decHour (s.readByte 2 2), minute := decMin (s.readByte 1 1), second := decSec (s.readByte 0 0) }]
      trace       := s.trace ++ s.readEvents 0 0 ++ s.readEvents 1 1 ++ s.readEvents 2 2 ++ s.readEvents 3 4
                      ++ s.readEvents 4 5 ++ s.readEvents 5 6 }

/-- 42_sequences.md R164: SET_DATETIME and READ_DATETIME each append exactly 6 `CS+`, 12 transfers and 6 `CS-`; INIT
appends 1, 2, 1 and one `W(10)`. The list of requests is the model's (log 10). -/
def Obligations.OperationsHaveTheirTransactionCount : Prop :=
  ∀ (s : State) (r : HostRequest) (rest : List HostRequest), s.cs = .deasserted → s.activity = .idle →
    s.requests = r :: rest → s.busAnswers 12 = true →
    ∃ k u ev, Sys2Proof.core.run k s = .next u ∧ u.busy = false ∧ u.requests = rest ∧ u.trace = s.trace ++ ev
      ∧ ev.count .csOn = (if r = .init then 1 else 6)
      ∧ ev.countP BusEvent.isXfer = (if r = .init then 2 else 12)
      ∧ ev.count .csOff = (if r = .init then 1 else 6)
      ∧ ev.count (.wait 10) = (if r = .init then 1 else 0)

/-- 42_sequences.md R166: a request begins its operation while `busy` is false (and makes it true) and has no step
while `busy` is true; a step takes a request off the host's list only from the idle block. The list and the refusal's
name are the model's (log 10). -/
def Obligations.RequestsAreTakenOnlyWhenIdle : Prop :=
  (∀ (r : HostRequest) (s : State), s.busy = true → request r s = .refused (.requestWhileBusy r))
  ∧ (∀ (r : HostRequest) (s : State), s.busy = false → ∃ t, request r s = .next t ∧ t.busy = true ∧ t.trace = s.trace)
  ∧ (∀ s t : State, step s = .next t → s.busy = true → t.requests = s.requests)

/-- 60_exceptions.md R188, read over steps: where the bus does not answer both transfers of the transaction due, the
step leaves chip-select asserted and `busy` true with no `CS-`, and every later step leaves the state as it is (that
"no step" is a step to the same state is the model's choice, log 8). -/
def Obligations.StuckBusBlocksForEver : Prop :=
  ∀ (s : State) (op : Op) (bytes : List Byte) (i : Instr), s.cs = .deasserted → s.activity = .transacting op →
    fetch op s = .ok bytes → decode bytes = .ok i → s.busAnswers 2 = false →
    ∃ t ev, step s = .next t ∧ t.cs = .asserted ∧ t.busy = true ∧ t.trace = s.trace ++ ev ∧ BusEvent.csOff ∉ ev
      ∧ ∀ n, Sys2Proof.core.run n t = .next t

/-- 70_reset_and_hazards.md R201: after reset the block does nothing until the host requests an operation: the trace
is empty and stays so; and so does any idle block with chip-select released. That waiting is a step to the same state,
and that no request is pending at reset, are the model's choices (log 9, 10). -/
def Obligations.IdleBlockWaitsForTheHost : Prop :=
  State.reset.trace = []
  ∧ (∀ n, Sys2Proof.core.run n State.reset = .next State.reset)
  ∧ (∀ (s : State) (n : Nat), s.cs = .deasserted → s.activity = .idle → s.requests = [] → Sys2Proof.core.run n s = .next s)

/-- 10_state.md R29 and 42_sequences.md R167: the block never reads `inited`. A step from a state with another value of
`inited` is the same step, but for that value; only the end of INIT writes it, and it writes true. -/
def Obligations.InitedIsNeverRead : Prop :=
  (∀ (s : State) (b : Bool), s.activity ≠ .settling →
      step { s with inited := b } = mapNext (fun t => { t with inited := b }) (step s))
  ∧ (∀ (s : State) (b : Bool), s.cs = .deasserted → s.activity = .settling → step { s with inited := b } = step s)
  ∧ (∀ s t : State, step s = .next t → t.inited ≠ s.inited → s.activity = .settling ∧ t.inited = true)

/-- 42_sequences.md R163: control does not depend on any byte the peripheral returns. Two states that differ only in
what the peripheral holds and answers step alike, to states that differ only so again: same `idx`, same operation, same
bytes sent. -/
def Obligations.ControlNeverDependsOnTheAnswers : Prop :=
  ∀ s t s' : State, SameControl s t → step s = .next s' → ∃ t', step t = .next t' ∧ SameControl s' t'

/-- 20_memory.md R59: every run appends to the trace and never removes from it; what READ_DATETIME returned stays
too. -/
def Obligations.RunsOnlyAppendToTheTrace : Prop :=
  ∀ (n : Nat) (s t : State), Sys2Proof.core.run n s = .next t →
    (∃ ev, t.trace = s.trace ++ ev) ∧ (∃ ts, t.returned = s.returned ++ ts)

/-- 42_sequences.md R166 and 60_exceptions.md R188: an operation in progress completes, given that the bus answers: from
every state of the invariant, within 8 steps. The number of steps is the model's (log 9). -/
def Obligations.OperationCompletesIfTheBusAnswers : Prop :=
  ∀ s : State, s.Inv → s.cs = .deasserted → s.answersLeft = none →
    ∃ k t, k ≤ 8 ∧ Sys2Proof.core.run k s = .next t ∧ t.busy = false ∧ t.requests = s.requests

/-! ### Reset and the invariant -/

/-- 70_reset_and_hazards.md R200: after reset the block is idle with chip-select released, holds no frame contents and
has not been initialised. These are the spec's decision D9 (log 17). -/
def Obligations.ResetLeavesTheBlockIdle : Prop :=
  State.reset.busy = false ∧ State.reset.cs = .deasserted ∧ (∀ i, State.reset.frame.get i = none)
  ∧ State.reset.inited = false

/-- The invariant holds after reset. -/
def Obligations.ResetMeetsTheMachineInvariant : Prop := State.reset.Inv

/-- Every step keeps the invariant: the register image canonical, F[3] without a value (10_state.md R22), the frame and
`idx` as the operation needs them (R23, R27), chip-select asserted only inside a transaction (R28), and the whole trace
one the block may make: transactions of two transfers each, only the thirteen addresses, ascending order, six to a
full read or write, the settle delay only after the control write. -/
def Obligations.EveryStepKeepsTheMachineInvariant : Prop :=
  ∀ s t : State, s.Inv → step s = .next t → t.Inv

/-- 60_exceptions.md R180: the block raises no exception. From every state of the invariant the step answers a next
state: no model fault and no refusal is ever met. For a stuck bus that next state is the same state (log 8). -/
def Obligations.NoStepOfTheInvariantStops : Prop :=
  ∀ s : State, s.Inv → ∃ t, step s = .next t

/-- 20_memory.md R42, R43: in a state of the invariant every transfer that follows a `CS+` sends one of the thirteen
address bytes; 0x03 and 0x83 are not among them. -/
def Obligations.OnlyIssuedAddressesFollowChipSelect : Prop :=
  (∀ s : State, s.Inv → ∀ (before after : List BusEvent) (o i : Byte),
    s.trace = before ++ .csOn :: .xfer o i :: after → o ∈ issuedAddresses)
  ∧ (0x03#8 : Byte) ∉ issuedAddresses ∧ (0x83#8 : Byte) ∉ issuedAddresses

/-- 42_sequences.md R160, 60_exceptions.md R190, 70_reset_and_hazards.md R206: in a state of the invariant a delay is
10 time-units long and stands directly after the `CS-` of the control write. -/
def Obligations.DelayStandsOnlyAfterTheControlWrite : Prop :=
  ∀ s : State, s.Inv → ∀ (before after : List BusEvent) (n : Nat), s.trace = before ++ .wait n :: after →
    n = 10 ∧ ∃ pre i0 i1, before = pre ++ [.csOn, .xfer 0x8E#8 i0, .xfer 0x60#8 i1, .csOff]
end

