-- ==== Sys2Proof/Laws/Frame.lean ====
section
/-! SUPPORT. The laws of the frame's slots, and of the ranges of the civil time that fills them. -/

namespace Sys2Proof

/-- All that a natural civil time satisfies (10_state.md R24). -/
theorem CivilTime.natural_iff (t : CivilTime) : t.natural = true ↔
    (1900 ≤ t.year ∧ t.year ≤ 9999) ∧ (1 ≤ t.month ∧ t.month ≤ 12) ∧ (1 ≤ t.day ∧ t.day ≤ 31) ∧ t.hour ≤ 23
      ∧ t.minute ≤ 59 ∧ t.second ≤ 59 := by
  simp only [CivilTime.natural, CivilTime.inEncodeDomain, Bool.and_eq_true, decide_eq_true_eq]
  tauto

/-- A natural civil time is in the encoders' domain. -/
theorem CivilTime.inEncodeDomain_of_natural {t : CivilTime} (h : t.natural = true) : t.inEncodeDomain = true :=
  ((Bool.and_eq_true _ _).mp h).1

/-- A natural civil time fits the widths the spec gives its fields (10_state.md R25). -/
theorem CivilTime.fits_of_natural {t : CivilTime} (h : t.natural = true) : t.fits = true := by
  have := t.natural_iff.mp h
  simp only [CivilTime.fits, Bool.and_eq_true, decide_eq_true_eq]
  omega

end Sys2Proof

namespace Sys2Proof.Machine

/-- A slot reads what was written to it. -/
@[simp] theorem Frame.get_set_same (F : Frame) (f : Field) (v : Byte) : (F.set f v).get f.index = some v := by
  cases f <;> rfl

/-- A write to a slot leaves every other slot alone. -/
theorem Frame.get_set_other (F : Frame) (f : Field) (v : Byte) (j : SeqIndex) (h : j ≠ f.index) :
    (F.set f v).get j = F.get j := by
  cases f <;> match j, h with
    | 0#3, h => first | rfl | exact absurd rfl h
    | 1#3, h => first | rfl | exact absurd rfl h
    | 2#3, h => first | rfl | exact absurd rfl h
    | 3#3, _ => rfl
    | 4#3, h => first | rfl | exact absurd rfl h
    | 5#3, h => first | rfl | exact absurd rfl h
    | 6#3, h => first | rfl | exact absurd rfl h
    | 7#3, _ => rfl

/-- Slot 3 is never written. -/
@[simp] theorem Frame.set_dow (F : Frame) (f : Field) (v : Byte) : (F.set f v).dow = F.dow := by cases f <;> rfl

/-- No slot of the empty frame holds a value. -/
@[simp] theorem Frame.empty_get (j : SeqIndex) : Frame.empty.get j = none := by revert j; decide

@[simp] theorem Frame.empty_dow : Frame.empty.dow = none := rfl

@[simp] theorem encodeFrame_dow (t : CivilTime) : (encodeFrame t).dow = none := rfl

/-- An encoded frame holds the multiplexer's byte at each of the six indices. -/
@[simp] theorem encodeFrame_get (t : CivilTime) (f : Field) : (encodeFrame t).get f.index = some (encMux f t) := by
  cases f <;> rfl

/-- A field is recovered from its index. -/
theorem Field.index_injective (f g : Field) (h : f.index = g.index) : f = g := by
  cases f <;> cases g <;> first | rfl | exact absurd h (by decide)

/-- The indices of the six fields are FIELD_IDX. -/
theorem Field.index_mem (f : Field) : f.index ∈ Config.fieldIdx := by cases f <;> decide

end Sys2Proof.Machine
end

