-- ==== Sys2Proof/Laws/Memory.lean ====
section
/-! SUPPORT. The laws of the register space: a read after a write, and the canonical form is kept. -/

namespace Sys2Proof.Machine

theorem Memory.wfFrom_mono (m : Memory) (lo hi : Nat) (h : lo ≤ hi) (w : m.wfFrom hi = true) : m.wfFrom lo = true := by
  cases m with
  | nil => rfl
  | cons c rest =>
    simp only [Memory.wfFrom, Bool.and_eq_true, decide_eq_true_eq] at w ⊢
    exact ⟨⟨⟨le_trans h w.1.1.1, w.1.1.2⟩, w.1.2⟩, w.2⟩

/-- Below the lowest index of a canonical list every register reads as an unlisted one. -/
theorem Memory.read_below (m : Memory) (lo a : Nat) (w : m.wfFrom lo = true) (h : a < lo) : m.read a = unlistedByte := by
  induction m generalizing lo with
  | nil => rfl
  | cons c rest ih =>
    simp only [Memory.wfFrom, Bool.and_eq_true, decide_eq_true_eq] at w
    have ne : a ≠ c.1 := by omega
    simpa [Memory.read, ne] using ih (c.1 + 1) w.2 (by omega)

theorem Memory.read_write_same_from (m : Memory) (lo a : Nat) (v : Byte) (w : m.wfFrom lo = true) :
    (m.write a v).read a = v := by
  induction m generalizing lo with
  | nil => by_cases hv : v = unlistedByte <;> simp [Memory.write, Memory.read, hv]
  | cons c rest ih =>
    obtain ⟨b, x⟩ := c
    simp only [Memory.wfFrom, Bool.and_eq_true, decide_eq_true_eq] at w
    simp only [Memory.write]
    by_cases hlt : a < b
    · have ne : a ≠ b := by omega
      by_cases hv : v = unlistedByte
      · simpa [hlt, hv, Memory.read, ne] using Memory.read_below rest (b + 1) a w.2 (by omega)
      · simp [hlt, hv, Memory.read]
    · by_cases heq : a = b
      · subst heq
        by_cases hv : v = unlistedByte
        · simpa [hv] using Memory.read_below rest (a + 1) a w.2 (by omega)
        · simp [hv, Memory.read]
      · simpa [hlt, heq, Memory.read] using ih (b + 1) w.2

/-- A read after a write to the same index gives the byte written. -/
theorem Memory.read_write_same (m : Memory) (a : Nat) (v : Byte) (w : m.wf = true) : (m.write a v).read a = v :=
  Memory.read_write_same_from m 0 a v w

/-- A write leaves every other index alone. -/
theorem Memory.read_write_other (m : Memory) (a b : Nat) (v : Byte) (h : b ≠ a) : (m.write a v).read b = m.read b := by
  induction m with
  | nil => by_cases hv : v = unlistedByte <;> simp [Memory.write, Memory.read, hv, h]
  | cons c rest ih =>
    obtain ⟨c, x⟩ := c
    simp only [Memory.write]
    by_cases hlt : a < c
    · by_cases hv : v = unlistedByte <;> simp [hlt, hv, Memory.read, h]
    · by_cases heq : a = c
      · subst heq
        by_cases hv : v = unlistedByte <;> simp [hv, Memory.read, h]
      · simp [hlt, heq, Memory.read, ih]

theorem Memory.write_wfFrom (m : Memory) (lo a : Nat) (v : Byte) (hlo : lo ≤ a) (ha : a < 2 ^ 7)
    (w : m.wfFrom lo = true) : (m.write a v).wfFrom lo = true := by
  induction m generalizing lo with
  | nil =>
    by_cases hv : v = unlistedByte
    · simp [Memory.write, hv, Memory.wfFrom]
    · simp only [Memory.write, hv, if_false, Memory.wfFrom, Bool.and_eq_true, decide_eq_true_eq]
      exact ⟨⟨⟨hlo, ha⟩, hv⟩, trivial⟩
  | cons c rest ih =>
    obtain ⟨b, x⟩ := c
    have w' := w
    simp only [Memory.wfFrom, Bool.and_eq_true, decide_eq_true_eq] at w
    obtain ⟨⟨⟨h1, h2⟩, h3⟩, h4⟩ := w
    simp only [Memory.write]
    by_cases hlt : a < b
    · by_cases hv : v = unlistedByte
      · simpa [hlt, hv] using w'
      · simp only [hlt, hv, if_true, if_false, Memory.wfFrom, Bool.and_eq_true, decide_eq_true_eq]
        exact ⟨⟨⟨hlo, ha⟩, hv⟩, ⟨⟨hlt, h2⟩, h3⟩, h4⟩
    · by_cases heq : a = b
      · subst heq
        by_cases hv : v = unlistedByte
        · simpa [hv] using Memory.wfFrom_mono rest lo (a + 1) (by omega) h4
        · simp only [lt_irrefl, hv, if_true, if_false, Memory.wfFrom, Bool.and_eq_true, decide_eq_true_eq]
          exact ⟨⟨⟨hlo, ha⟩, hv⟩, h4⟩
      · simp only [hlt, heq, if_false, Memory.wfFrom, Bool.and_eq_true, decide_eq_true_eq]
        exact ⟨⟨⟨h1, h2⟩, h3⟩, ih (b + 1) (by omega) h4⟩

/-- A write keeps the canonical form. -/
theorem Memory.write_wf (m : Memory) (a : Nat) (v : Byte) (ha : a < 2 ^ 7) (w : m.wf = true) : (m.write a v).wf = true :=
  Memory.write_wfFrom m 0 a v (Nat.zero_le a) ha w

/-- The register space after reset is canonical. -/
theorem Memory.reset_wf : State.reset.cells.wf = true := rfl

end Sys2Proof.Machine
end

