-- ==== Sys2Proof/Laws/State.lean ====
section
/-! SUPPORT. One lemma for each field of State under each named update, and under the closed form of a transaction. -/

namespace Sys2Proof.Machine

section
variable (s : State)

@[simp] theorem State.csAssert_frame : (s.csAssert).frame = s.frame := rfl
@[simp] theorem State.csAssert_idx : (s.csAssert).idx = s.idx := rfl
@[simp] theorem State.csAssert_cs : (s.csAssert).cs = .asserted := rfl
@[simp] theorem State.csAssert_activity : (s.csAssert).activity = s.activity := rfl
@[simp] theorem State.csAssert_inited : (s.csAssert).inited = s.inited := rfl
@[simp] theorem State.csAssert_cells : (s.csAssert).cells = s.cells := rfl
@[simp] theorem State.csAssert_unlocked : (s.csAssert).unlocked = s.unlocked := rfl
@[simp] theorem State.csAssert_pointer : (s.csAssert).pointer = s.pointer := rfl
@[simp] theorem State.csAssert_trace : (s.csAssert).trace = s.trace ++ [.csOn] := rfl
@[simp] theorem State.csAssert_returned : (s.csAssert).returned = s.returned := rfl
@[simp] theorem State.csAssert_requests : (s.csAssert).requests = s.requests := rfl
@[simp] theorem State.csAssert_oracle : (s.csAssert).oracle = s.oracle := rfl
@[simp] theorem State.csAssert_answersLeft : (s.csAssert).answersLeft = s.answersLeft := rfl
@[simp] theorem State.csAssert_draws : (s.csAssert).draws = s.draws := rfl

end

section
variable (s : State)

@[simp] theorem State.csDeassert_frame : (s.csDeassert).frame = s.frame := rfl
@[simp] theorem State.csDeassert_idx : (s.csDeassert).idx = s.idx := rfl
@[simp] theorem State.csDeassert_cs : (s.csDeassert).cs = .deasserted := rfl
@[simp] theorem State.csDeassert_activity : (s.csDeassert).activity = s.activity := rfl
@[simp] theorem State.csDeassert_inited : (s.csDeassert).inited = s.inited := rfl
@[simp] theorem State.csDeassert_cells : (s.csDeassert).cells = s.cells := rfl
@[simp] theorem State.csDeassert_unlocked : (s.csDeassert).unlocked = s.unlocked := rfl
@[simp] theorem State.csDeassert_pointer : (s.csDeassert).pointer = s.pointer := rfl
@[simp] theorem State.csDeassert_trace : (s.csDeassert).trace = s.trace ++ [.csOff] := rfl
@[simp] theorem State.csDeassert_returned : (s.csDeassert).returned = s.returned := rfl
@[simp] theorem State.csDeassert_requests : (s.csDeassert).requests = s.requests := rfl
@[simp] theorem State.csDeassert_oracle : (s.csDeassert).oracle = s.oracle := rfl
@[simp] theorem State.csDeassert_answersLeft : (s.csDeassert).answersLeft = s.answersLeft := rfl
@[simp] theorem State.csDeassert_draws : (s.csDeassert).draws = s.draws := rfl

end

section
variable (s : State) (n : Nat)

@[simp] theorem State.wait_frame : (s.wait n).frame = s.frame := rfl
@[simp] theorem State.wait_idx : (s.wait n).idx = s.idx := rfl
@[simp] theorem State.wait_cs : (s.wait n).cs = s.cs := rfl
@[simp] theorem State.wait_activity : (s.wait n).activity = s.activity := rfl
@[simp] theorem State.wait_inited : (s.wait n).inited = s.inited := rfl
@[simp] theorem State.wait_cells : (s.wait n).cells = s.cells := rfl
@[simp] theorem State.wait_unlocked : (s.wait n).unlocked = s.unlocked := rfl
@[simp] theorem State.wait_pointer : (s.wait n).pointer = s.pointer := rfl
@[simp] theorem State.wait_trace : (s.wait n).trace = s.trace ++ [.wait n] := rfl
@[simp] theorem State.wait_returned : (s.wait n).returned = s.returned := rfl
@[simp] theorem State.wait_requests : (s.wait n).requests = s.requests := rfl
@[simp] theorem State.wait_oracle : (s.wait n).oracle = s.oracle := rfl
@[simp] theorem State.wait_answersLeft : (s.wait n).answersLeft = s.answersLeft := rfl
@[simp] theorem State.wait_draws : (s.wait n).draws = s.draws := rfl

end

section
variable (s : State) (o i : Byte)

@[simp] theorem State.transferred_frame : (s.transferred o i).frame = s.frame := rfl
@[simp] theorem State.transferred_idx : (s.transferred o i).idx = s.idx := rfl
@[simp] theorem State.transferred_cs : (s.transferred o i).cs = s.cs := rfl
@[simp] theorem State.transferred_activity : (s.transferred o i).activity = s.activity := rfl
@[simp] theorem State.transferred_inited : (s.transferred o i).inited = s.inited := rfl
@[simp] theorem State.transferred_cells : (s.transferred o i).cells = s.cells := rfl
@[simp] theorem State.transferred_unlocked : (s.transferred o i).unlocked = s.unlocked := rfl
@[simp] theorem State.transferred_pointer : (s.transferred o i).pointer = s.pointer := rfl
@[simp] theorem State.transferred_trace : (s.transferred o i).trace = s.trace ++ [.xfer o i] := rfl
@[simp] theorem State.transferred_returned : (s.transferred o i).returned = s.returned := rfl
@[simp] theorem State.transferred_requests : (s.transferred o i).requests = s.requests := rfl
@[simp] theorem State.transferred_oracle : (s.transferred o i).oracle = s.oracle := rfl
@[simp] theorem State.transferred_answersLeft : (s.transferred o i).answersLeft = s.answersLeft.map (· - 1) := rfl
@[simp] theorem State.transferred_draws : (s.transferred o i).draws = s.draws + 1 := rfl

end

section
variable (s : State)

@[simp] theorem State.movePointer_frame : (s.movePointer).frame = s.frame := rfl
@[simp] theorem State.movePointer_idx : (s.movePointer).idx = s.idx := rfl
@[simp] theorem State.movePointer_cs : (s.movePointer).cs = s.cs := rfl
@[simp] theorem State.movePointer_activity : (s.movePointer).activity = s.activity := rfl
@[simp] theorem State.movePointer_inited : (s.movePointer).inited = s.inited := rfl
@[simp] theorem State.movePointer_cells : (s.movePointer).cells = s.cells := rfl
@[simp] theorem State.movePointer_unlocked : (s.movePointer).unlocked = s.unlocked := rfl
@[simp] theorem State.movePointer_pointer : (s.movePointer).pointer = Config.pointerAfter s.draws := rfl
@[simp] theorem State.movePointer_trace : (s.movePointer).trace = s.trace := rfl
@[simp] theorem State.movePointer_returned : (s.movePointer).returned = s.returned := rfl
@[simp] theorem State.movePointer_requests : (s.movePointer).requests = s.requests := rfl
@[simp] theorem State.movePointer_oracle : (s.movePointer).oracle = s.oracle := rfl
@[simp] theorem State.movePointer_answersLeft : (s.movePointer).answersLeft = s.answersLeft := rfl
@[simp] theorem State.movePointer_draws : (s.movePointer).draws = s.draws := rfl

end

section
variable (s : State) (a : RegIndex) (v : Byte)

@[simp] theorem State.takeWrite_frame : (s.takeWrite a v).frame = s.frame := rfl
@[simp] theorem State.takeWrite_idx : (s.takeWrite a v).idx = s.idx := rfl
@[simp] theorem State.takeWrite_cs : (s.takeWrite a v).cs = s.cs := rfl
@[simp] theorem State.takeWrite_activity : (s.takeWrite a v).activity = s.activity := rfl
@[simp] theorem State.takeWrite_inited : (s.takeWrite a v).inited = s.inited := rfl
@[simp] theorem State.takeWrite_cells : (s.takeWrite a v).cells = s.cells.write a.toNat v := rfl
@[simp] theorem State.takeWrite_unlocked : (s.takeWrite a v).unlocked = (s.unlocked || decide (a = Config.ctrlIndex)) := rfl
@[simp] theorem State.takeWrite_pointer : (s.takeWrite a v).pointer = s.pointer := rfl
@[simp] theorem State.takeWrite_trace : (s.takeWrite a v).trace = s.trace := rfl
@[simp] theorem State.takeWrite_returned : (s.takeWrite a v).returned = s.returned := rfl
@[simp] theorem State.takeWrite_requests : (s.takeWrite a v).requests = s.requests := rfl
@[simp] theorem State.takeWrite_oracle : (s.takeWrite a v).oracle = s.oracle := rfl
@[simp] theorem State.takeWrite_answersLeft : (s.takeWrite a v).answersLeft = s.answersLeft := rfl
@[simp] theorem State.takeWrite_draws : (s.takeWrite a v).draws = s.draws := rfl

end

section
variable (s : State) (f : Field) (v : Byte)

@[simp] theorem State.setSlot_frame : (s.setSlot f v).frame = s.frame.set f v := rfl
@[simp] theorem State.setSlot_idx : (s.setSlot f v).idx = s.idx := rfl
@[simp] theorem State.setSlot_cs : (s.setSlot f v).cs = s.cs := rfl
@[simp] theorem State.setSlot_activity : (s.setSlot f v).activity = s.activity := rfl
@[simp] theorem State.setSlot_inited : (s.setSlot f v).inited = s.inited := rfl
@[simp] theorem State.setSlot_cells : (s.setSlot f v).cells = s.cells := rfl
@[simp] theorem State.setSlot_unlocked : (s.setSlot f v).unlocked = s.unlocked := rfl
@[simp] theorem State.setSlot_pointer : (s.setSlot f v).pointer = s.pointer := rfl
@[simp] theorem State.setSlot_trace : (s.setSlot f v).trace = s.trace := rfl
@[simp] theorem State.setSlot_returned : (s.setSlot f v).returned = s.returned := rfl
@[simp] theorem State.setSlot_requests : (s.setSlot f v).requests = s.requests := rfl
@[simp] theorem State.setSlot_oracle : (s.setSlot f v).oracle = s.oracle := rfl
@[simp] theorem State.setSlot_answersLeft : (s.setSlot f v).answersLeft = s.answersLeft := rfl
@[simp] theorem State.setSlot_draws : (s.setSlot f v).draws = s.draws := rfl

end

section
variable (s : State)

@[simp] theorem State.beginInit_frame : (s.beginInit).frame = s.frame := rfl
@[simp] theorem State.beginInit_idx : (s.beginInit).idx = s.idx := rfl
@[simp] theorem State.beginInit_cs : (s.beginInit).cs = s.cs := rfl
@[simp] theorem State.beginInit_activity : (s.beginInit).activity = .transacting .init := rfl
@[simp] theorem State.beginInit_inited : (s.beginInit).inited = s.inited := rfl
@[simp] theorem State.beginInit_cells : (s.beginInit).cells = s.cells := rfl
@[simp] theorem State.beginInit_unlocked : (s.beginInit).unlocked = s.unlocked := rfl
@[simp] theorem State.beginInit_pointer : (s.beginInit).pointer = s.pointer := rfl
@[simp] theorem State.beginInit_trace : (s.beginInit).trace = s.trace := rfl
@[simp] theorem State.beginInit_returned : (s.beginInit).returned = s.returned := rfl
@[simp] theorem State.beginInit_requests : (s.beginInit).requests = s.requests := rfl
@[simp] theorem State.beginInit_oracle : (s.beginInit).oracle = s.oracle := rfl
@[simp] theorem State.beginInit_answersLeft : (s.beginInit).answersLeft = s.answersLeft := rfl
@[simp] theorem State.beginInit_draws : (s.beginInit).draws = s.draws := rfl

end

section
variable (s : State) (t : CivilTime)

@[simp] theorem State.beginSet_frame : (s.beginSet t).frame = encodeFrame t := rfl
@[simp] theorem State.beginSet_idx : (s.beginSet t).idx = 0 := rfl
@[simp] theorem State.beginSet_cs : (s.beginSet t).cs = s.cs := rfl
@[simp] theorem State.beginSet_activity : (s.beginSet t).activity = .transacting .set := rfl
@[simp] theorem State.beginSet_inited : (s.beginSet t).inited = s.inited := rfl
@[simp] theorem State.beginSet_cells : (s.beginSet t).cells = s.cells := rfl
@[simp] theorem State.beginSet_unlocked : (s.beginSet t).unlocked = s.unlocked := rfl
@[simp] theorem State.beginSet_pointer : (s.beginSet t).pointer = s.pointer := rfl
@[simp] theorem State.beginSet_trace : (s.beginSet t).trace = s.trace := rfl
@[simp] theorem State.beginSet_returned : (s.beginSet t).returned = s.returned := rfl
@[simp] theorem State.beginSet_requests : (s.beginSet t).requests = s.requests := rfl
@[simp] theorem State.beginSet_oracle : (s.beginSet t).oracle = s.oracle := rfl
@[simp] theorem State.beginSet_answersLeft : (s.beginSet t).answersLeft = s.answersLeft := rfl
@[simp] theorem State.beginSet_draws : (s.beginSet t).draws = s.draws := rfl

end

section
variable (s : State)

@[simp] theorem State.beginRead_frame : (s.beginRead).frame = Frame.empty := rfl
@[simp] theorem State.beginRead_idx : (s.beginRead).idx = 0 := rfl
@[simp] theorem State.beginRead_cs : (s.beginRead).cs = s.cs := rfl
@[simp] theorem State.beginRead_activity : (s.beginRead).activity = .transacting .read := rfl
@[simp] theorem State.beginRead_inited : (s.beginRead).inited = s.inited := rfl
@[simp] theorem State.beginRead_cells : (s.beginRead).cells = s.cells := rfl
@[simp] theorem State.beginRead_unlocked : (s.beginRead).unlocked = s.unlocked := rfl
@[simp] theorem State.beginRead_pointer : (s.beginRead).pointer = s.pointer := rfl
@[simp] theorem State.beginRead_trace : (s.beginRead).trace = s.trace := rfl
@[simp] theorem State.beginRead_returned : (s.beginRead).returned = s.returned := rfl
@[simp] theorem State.beginRead_requests : (s.beginRead).requests = s.requests := rfl
@[simp] theorem State.beginRead_oracle : (s.beginRead).oracle = s.oracle := rfl
@[simp] theorem State.beginRead_answersLeft : (s.beginRead).answersLeft = s.answersLeft := rfl
@[simp] theorem State.beginRead_draws : (s.beginRead).draws = s.draws := rfl

end

section
variable (s : State)

@[simp] theorem State.complete_frame : (s.complete).frame = Frame.empty := rfl
@[simp] theorem State.complete_idx : (s.complete).idx = s.idx := rfl
@[simp] theorem State.complete_cs : (s.complete).cs = s.cs := rfl
@[simp] theorem State.complete_activity : (s.complete).activity = .idle := rfl
@[simp] theorem State.complete_inited : (s.complete).inited = s.inited := rfl
@[simp] theorem State.complete_cells : (s.complete).cells = s.cells := rfl
@[simp] theorem State.complete_unlocked : (s.complete).unlocked = s.unlocked := rfl
@[simp] theorem State.complete_pointer : (s.complete).pointer = s.pointer := rfl
@[simp] theorem State.complete_trace : (s.complete).trace = s.trace := rfl
@[simp] theorem State.complete_returned : (s.complete).returned = s.returned := rfl
@[simp] theorem State.complete_requests : (s.complete).requests = s.requests := rfl
@[simp] theorem State.complete_oracle : (s.complete).oracle = s.oracle := rfl
@[simp] theorem State.complete_answersLeft : (s.complete).answersLeft = s.answersLeft := rfl
@[simp] theorem State.complete_draws : (s.complete).draws = s.draws := rfl

end

section
variable (s : State) (addr data sim : Byte)

@[simp] theorem State.afterTransaction_frame : (s.afterTransaction addr data sim).frame = s.frame := rfl
@[simp] theorem State.afterTransaction_idx : (s.afterTransaction addr data sim).idx = s.idx := rfl
@[simp] theorem State.afterTransaction_cs : (s.afterTransaction addr data sim).cs = .deasserted := rfl
@[simp] theorem State.afterTransaction_activity : (s.afterTransaction addr data sim).activity = s.activity := rfl
@[simp] theorem State.afterTransaction_inited : (s.afterTransaction addr data sim).inited = s.inited := rfl
@[simp] theorem State.afterTransaction_cells : (s.afterTransaction addr data sim).cells = s.cells := rfl
@[simp] theorem State.afterTransaction_unlocked : (s.afterTransaction addr data sim).unlocked = s.unlocked := rfl
@[simp] theorem State.afterTransaction_pointer : (s.afterTransaction addr data sim).pointer = Config.pointerAfter (s.draws + 2) := rfl
@[simp] theorem State.afterTransaction_trace : (s.afterTransaction addr data sim).trace = s.trace ++ [.csOn, .xfer addr (s.answer 0 0x00#8), .xfer data (s.answer 1 sim), .csOff] := rfl
@[simp] theorem State.afterTransaction_returned : (s.afterTransaction addr data sim).returned = s.returned := rfl
@[simp] theorem State.afterTransaction_requests : (s.afterTransaction addr data sim).requests = s.requests := rfl
@[simp] theorem State.afterTransaction_oracle : (s.afterTransaction addr data sim).oracle = s.oracle := rfl
@[simp] theorem State.afterTransaction_answersLeft : (s.afterTransaction addr data sim).answersLeft = s.answersLeft.map (· - 2) := rfl
@[simp] theorem State.afterTransaction_draws : (s.afterTransaction addr data sim).draws = s.draws + 2 := rfl

end

section
variable (s : State) (a : Nat) (v : Byte)

@[simp] theorem State.afterWrite_frame : (s.afterWrite a v).frame = s.frame := rfl
@[simp] theorem State.afterWrite_idx : (s.afterWrite a v).idx = s.idx := rfl
@[simp] theorem State.afterWrite_cs : (s.afterWrite a v).cs = .deasserted := rfl
@[simp] theorem State.afterWrite_activity : (s.afterWrite a v).activity = s.activity := rfl
@[simp] theorem State.afterWrite_inited : (s.afterWrite a v).inited = s.inited := rfl
@[simp] theorem State.afterWrite_cells : (s.afterWrite a v).cells = s.cells.write a v := rfl
@[simp] theorem State.afterWrite_unlocked : (s.afterWrite a v).unlocked = (s.unlocked || decide (a = 0x0E)) := rfl
@[simp] theorem State.afterWrite_pointer : (s.afterWrite a v).pointer = Config.pointerAfter (s.draws + 2) := rfl
@[simp] theorem State.afterWrite_trace : (s.afterWrite a v).trace = s.trace ++ [.csOn, .xfer (BitVec.ofNat 8 (a + 0x80)) (s.answer 0 0x00#8), .xfer v (s.answer 1 0x00#8), .csOff] := rfl
@[simp] theorem State.afterWrite_returned : (s.afterWrite a v).returned = s.returned := rfl
@[simp] theorem State.afterWrite_requests : (s.afterWrite a v).requests = s.requests := rfl
@[simp] theorem State.afterWrite_oracle : (s.afterWrite a v).oracle = s.oracle := rfl
@[simp] theorem State.afterWrite_answersLeft : (s.afterWrite a v).answersLeft = s.answersLeft.map (· - 2) := rfl
@[simp] theorem State.afterWrite_draws : (s.afterWrite a v).draws = s.draws + 2 := rfl

end

section
variable (s : State) (f : Field)

@[simp] theorem State.afterRead_frame : (s.afterRead f).frame = s.frame.set f (s.answer 1 (s.cells.read f.index.toNat)) := rfl
@[simp] theorem State.afterRead_idx : (s.afterRead f).idx = s.idx := rfl
@[simp] theorem State.afterRead_cs : (s.afterRead f).cs = .deasserted := rfl
@[simp] theorem State.afterRead_activity : (s.afterRead f).activity = s.activity := rfl
@[simp] theorem State.afterRead_inited : (s.afterRead f).inited = s.inited := rfl
@[simp] theorem State.afterRead_cells : (s.afterRead f).cells = s.cells := rfl
@[simp] theorem State.afterRead_unlocked : (s.afterRead f).unlocked = s.unlocked := rfl
@[simp] theorem State.afterRead_pointer : (s.afterRead f).pointer = Config.pointerAfter (s.draws + 2) := rfl
@[simp] theorem State.afterRead_trace : (s.afterRead f).trace = s.trace ++ [.csOn, .xfer (BitVec.ofNat 8 f.index.toNat) (s.answer 0 0x00#8), .xfer 0x00#8 (s.answer 1 (s.cells.read f.index.toNat)), .csOff] := rfl
@[simp] theorem State.afterRead_returned : (s.afterRead f).returned = s.returned := rfl
@[simp] theorem State.afterRead_requests : (s.afterRead f).requests = s.requests := rfl
@[simp] theorem State.afterRead_oracle : (s.afterRead f).oracle = s.oracle := rfl
@[simp] theorem State.afterRead_answersLeft : (s.afterRead f).answersLeft = s.answersLeft.map (· - 2) := rfl
@[simp] theorem State.afterRead_draws : (s.afterRead f).draws = s.draws + 2 := rfl

end

end Sys2Proof.Machine
end

