-- ==== Sys2Proof/Laws/Bus.lean ====
section
/-! SUPPORT. What the bus operations can do: one transfer, one transaction, REG_WRITE and REG_READ, and which of them
each instruction is. -/

namespace Sys2Proof.Machine

/-! ### Answers -/

theorem State.busAnswers_mono (s : State) (m n : Nat) (h : m ≤ n) (w : s.busAnswers n = true) :
    s.busAnswers m = true := by
  unfold State.busAnswers at *
  split at w
  · rfl
  · simp only [decide_eq_true_eq] at w ⊢; omega

/-- The bus does not answer two more transfers exactly when it answers none or one. -/
theorem State.busAnswers_two_false (s : State) :
    s.busAnswers 2 = false ↔ s.answersLeft = some 0 ∨ s.answersLeft = some 1 := by
  unfold State.busAnswers
  split <;> rename_i h <;> simp [h]
  omega

/-- After n transfers the bus answers as many fewer. -/
theorem busAnswers_of_map_sub (s t : State) (m n : Nat) (ht : t.answersLeft = s.answersLeft.map (· - m))
    (h : s.busAnswers (m + n) = true) : t.busAnswers n = true := by
  unfold State.busAnswers at *
  rw [ht]
  split at h <;> rename_i hs <;> simp only [hs, Option.map_none, Option.map_some, decide_eq_true_eq] at h ⊢
  omega

/-- Two takings of answers are one. -/
theorem map_sub_map_sub (o : Option Nat) (m n : Nat) : (o.map (· - m)).map (· - n) = o.map (· - (m + n)) := by
  cases o <;> simp [Nat.sub_sub]

/-! ### One transfer (20_memory.md R58) -/

theorem xfer_answered (o sim : Byte) (s : State) (h : s.answersLeft ≠ some 0) :
    xfer o sim s = some (s.answer 0 sim, s.transferred o (s.answer 0 sim)) := by
  unfold xfer
  split
  · contradiction
  · rfl

theorem xfer_unanswered (o sim : Byte) (s : State) (h : s.answersLeft = some 0) : xfer o sim s = none := by
  simp [xfer, h]

/-! ### One transaction (41_bus_transactions.md R130, R131) -/

/-- A transaction the bus answers leaves the closed form of Safety.lean and gives the second byte received. -/
theorem transact_answered (addr data sim : Byte) (s : State) (h : s.busAnswers 2 = true) :
    transact addr data sim s = (s.afterTransaction addr data sim, some (s.answer 1 sim)) := by
  have h0 : s.csAssert.answersLeft ≠ some 0 := by
    intro e; simp only [State.csAssert_answersLeft] at e; simp [State.busAnswers, e] at h
  have h1 : (s.csAssert.transferred addr (s.csAssert.answer 0 0x00#8)).answersLeft ≠ some 0 := by
    intro e
    simp only [State.transferred_answersLeft, State.csAssert_answersLeft] at e
    cases ha : s.answersLeft with
    | none => simp [ha] at e
    | some k =>
      simp only [State.busAnswers, ha, decide_eq_true_eq] at h
      simp only [ha, Option.map_some, Option.some.injEq] at e
      omega
  unfold transact
  rw [xfer_answered _ _ _ h0]
  simp only
  rw [xfer_answered _ _ _ h1]
  simp only [State.afterTransaction, State.csDeassert, State.movePointer, State.transferred, State.csAssert, State.answer]
  cases s.answersLeft <;> cases s.oracle <;> simp [Nat.sub_sub]

/-- A transaction whose address byte is never answered. -/
theorem transact_first_unanswered (addr data sim : Byte) (s : State) (h : s.answersLeft = some 0) :
    transact addr data sim s = (s.csAssert, none) := by
  simp [transact, xfer_unanswered addr 0x00#8 s.csAssert (by simpa using h)]

/-- A transaction whose data byte is never answered. -/
theorem transact_second_unanswered (addr data sim : Byte) (s : State) (h : s.answersLeft = some 1) :
    transact addr data sim s = (s.csAssert.transferred addr (s.answer 0 0x00#8), none) := by
  have e : s.csAssert.answer 0 0x00#8 = s.answer 0 0x00#8 := rfl
  simp [transact, xfer_answered addr 0x00#8 s.csAssert (by simp [h]), xfer_unanswered, h, e]

/-- Everything a transaction can do: it completes, or it stops in its first or its second transfer. -/
theorem transact_cases (addr data sim : Byte) (s : State) :
    (s.busAnswers 2 = true ∧ transact addr data sim s = (s.afterTransaction addr data sim, some (s.answer 1 sim)))
    ∨ (s.answersLeft = some 0 ∧ transact addr data sim s = (s.csAssert, none))
    ∨ (s.answersLeft = some 1
        ∧ transact addr data sim s = (s.csAssert.transferred addr (s.answer 0 0x00#8), none)) := by
  cases h : s.busAnswers 2 with
  | true => exact .inl ⟨rfl, transact_answered addr data sim s h⟩
  | false =>
    rcases s.busAnswers_two_false.mp h with h | h
    · exact .inr (.inl ⟨h, transact_first_unanswered addr data sim s h⟩)
    · exact .inr (.inr ⟨h, transact_second_unanswered addr data sim s h⟩)

/-! ### REG_WRITE and REG_READ -/

/-- Everything REG_WRITE can do when it answers a next state. -/
theorem regWrite_next (a : RegIndex) (v : Byte) (s t : State) (h : regWrite a v s = .next t) :
    s.cs = .deasserted ∧
    ((s.busAnswers 2 = true ∧ t = (s.afterTransaction (writeAddress a) v 0x00#8).takeWrite a v)
     ∨ (s.answersLeft = some 0 ∧ t = s.csAssert)
     ∨ (s.answersLeft = some 1 ∧ t = s.csAssert.transferred (writeAddress a) (s.answer 0 0x00#8))) := by
  unfold regWrite at h
  cases hc : s.cs with
  | asserted => simp [hc] at h
  | deasserted =>
    simp only [hc] at h
    refine ⟨rfl, ?_⟩
    rcases transact_cases (writeAddress a) v 0x00#8 s with ⟨hb, he⟩ | ⟨hb, he⟩ | ⟨hb, he⟩ <;>
      simp only [he, Host.Outcome.next.injEq] at h
    · exact .inl ⟨hb, h.symm⟩
    · exact .inr (.inl ⟨hb, h.symm⟩)
    · exact .inr (.inr ⟨hb, h.symm⟩)

/-- Everything `F[i] <- REG_READ(i)` can do when it answers a next state. -/
theorem regRead_next (f : Field) (s t : State) (h : regRead f s = .next t) :
    s.cs = .deasserted ∧
    ((s.busAnswers 2 = true
        ∧ t = (s.afterTransaction (readAddress f.reg) Config.dummy (s.cells.read f.reg.toNat)).setSlot f
            (s.answer 1 (s.cells.read f.reg.toNat)))
     ∨ (s.answersLeft = some 0 ∧ t = s.csAssert)
     ∨ (s.answersLeft = some 1 ∧ t = s.csAssert.transferred (readAddress f.reg) (s.answer 0 0x00#8))) := by
  unfold regRead at h
  cases hc : s.cs with
  | asserted => simp [hc] at h
  | deasserted =>
    simp only [hc] at h
    refine ⟨rfl, ?_⟩
    rcases transact_cases (readAddress f.reg) Config.dummy (s.cells.read f.reg.toNat) s with
      ⟨hb, he⟩ | ⟨hb, he⟩ | ⟨hb, he⟩ <;> simp only [he, Host.Outcome.next.injEq] at h
    · exact .inl ⟨hb, h.symm⟩
    · exact .inr (.inl ⟨hb, h.symm⟩)
    · exact .inr (.inr ⟨hb, h.symm⟩)

/-- The address bytes in numbers. -/
theorem writeAddress_eq (a : RegIndex) : writeAddress a = BitVec.ofNat 8 (a.toNat + 0x80) := by revert a; decide

theorem readAddress_eq (a : RegIndex) : readAddress a = BitVec.ofNat 8 a.toNat := by revert a; decide

/-- A completed REG_WRITE in the closed form of Safety.lean. -/
theorem takeWrite_afterTransaction (a : RegIndex) (v : Byte) (s : State) :
    (s.afterTransaction (writeAddress a) v 0x00#8).takeWrite a v = s.afterWrite a.toNat v := by
  have h : ∀ a : RegIndex, decide (a = Config.ctrlIndex) = decide (a.toNat = 0x0E) := by decide
  simp [State.takeWrite, State.afterWrite, State.afterTransaction, writeAddress_eq, h]

/-- REG_WRITE completes where the bus answers twice. -/
theorem regWrite_answered (a : RegIndex) (v : Byte) (s : State) (hc : s.cs = .deasserted) (hb : s.busAnswers 2 = true) :
    regWrite a v s = .next (s.afterWrite a.toNat v) := by
  simp only [regWrite, hc, transact_answered _ _ _ _ hb, takeWrite_afterTransaction]

/-- REG_READ completes where the bus answers twice. -/
theorem regRead_answered (f : Field) (s : State) (hc : s.cs = .deasserted) (hb : s.busAnswers 2 = true) :
    regRead f s = .next (s.afterRead f) := by
  simp only [regRead, hc, transact_answered _ _ _ _ hb]
  cases f <;> rfl

/-- REG_WRITE with chip-select released always answers a next state. -/
theorem regWrite_released (a : RegIndex) (v : Byte) (s : State) (h : s.cs = .deasserted) :
    ∃ t, regWrite a v s = .next t := by
  rcases transact_cases (writeAddress a) v 0x00#8 s with ⟨_, he⟩ | ⟨_, he⟩ | ⟨_, he⟩ <;> simp [regWrite, h, he]

/-- REG_READ with chip-select released always answers a next state. -/
theorem regRead_released (f : Field) (s : State) (h : s.cs = .deasserted) : ∃ t, regRead f s = .next t := by
  rcases transact_cases (readAddress f.reg) Config.dummy (s.cells.read f.reg.toNat) s with
    ⟨_, he⟩ | ⟨_, he⟩ | ⟨_, he⟩ <;> simp [regRead, h, he]

/-! ### Which operation each instruction is -/

/-- An instruction that stores is REG_WRITE of its data byte. -/
theorem exec_storing (i : Instr) (a : RegIndex) (s : State) (h : storesTo i = some a) :
    ∃ v, encode i = [writeAddress a, v] ∧ exec i s = regWrite a v s := by
  cases i <;> simp only [storesTo, Option.some.injEq, reduceCtorEq] at h <;> subst h <;> exact ⟨_, rfl, rfl⟩

/-- An instruction that captures is REG_READ into its slot. -/
theorem exec_capturing (i : Instr) (f : Field) (s : State) (h : capturesInto i = some f) :
    encode i = [readAddress f.reg, Config.dummy] ∧ exec i s = regRead f s := by
  cases i <;> simp only [capturesInto, Option.some.injEq, reduceCtorEq] at h <;> subst h <;> exact ⟨rfl, rfl⟩

/-- Every instruction either stores or captures. -/
theorem stores_or_captures (i : Instr) :
    (∃ a, storesTo i = some a ∧ capturesInto i = none) ∨ (∃ f, capturesInto i = some f ∧ storesTo i = none) := by
  cases i <;> simp [storesTo, capturesInto]

/-- An instruction that answers a next state did so as a REG_WRITE or as a REG_READ. -/
theorem exec_next (i : Instr) (s t : State) (h : exec i s = .next t) :
    (∃ a v, storesTo i = some a ∧ capturesInto i = none ∧ encode i = [writeAddress a, v] ∧ regWrite a v s = .next t)
    ∨ (∃ f, storesTo i = none ∧ capturesInto i = some f ∧ encode i = [readAddress f.reg, Config.dummy]
        ∧ regRead f s = .next t) := by
  rcases stores_or_captures i with ⟨a, ha, hn⟩ | ⟨f, hf, hn⟩
  · obtain ⟨v, he, hx⟩ := exec_storing i a s ha
    exact .inl ⟨a, v, ha, hn, he, hx ▸ h⟩
  · obtain ⟨he, hx⟩ := exec_capturing i f s hf
    exact .inr ⟨f, hn, hf, he, hx ▸ h⟩

/-- With chip-select released every instruction answers a next state. -/
theorem exec_released (i : Instr) (s : State) (h : s.cs = .deasserted) : ∃ t, exec i s = .next t := by
  rcases stores_or_captures i with ⟨a, ha, _⟩ | ⟨f, hf, _⟩
  · obtain ⟨v, _, hx⟩ := exec_storing i a s ha
    exact hx ▸ regWrite_released a v s h
  · exact (exec_capturing i f s hf).2 ▸ regRead_released f s h

end Sys2Proof.Machine
end

