-- ==== Sys2Proof/Laws/PerInstr.lean ====
section
/-! SUPPORT. Statements made instruction by instruction, about an instruction as syntax. -/

namespace Sys2Proof.Laws.IssuedWord

/-- The instruction's encoding is two bytes, the first one of the thirteen issued addresses, the second one allowed
after it (30_encoding.md R60, R70; 20_memory.md R42), and it is well formed. -/
def Statement (i : Instr) : Prop :=
  i.wellFormed = true ∧ ∃ a d : Byte, encode i = [a, d] ∧ a ∈ issuedAddresses ∧ dataAllowed a d = true

theorem wrSec (v : Byte) : Statement (.wrSec v) := ⟨rfl, _, _, rfl, by decide, rfl⟩
theorem wrMin (v : Byte) : Statement (.wrMin v) := ⟨rfl, _, _, rfl, by decide, rfl⟩
theorem wrHour (v : Byte) : Statement (.wrHour v) := ⟨rfl, _, _, rfl, by decide, rfl⟩
theorem wrDay (v : Byte) : Statement (.wrDay v) := ⟨rfl, _, _, rfl, by decide, rfl⟩
theorem wrMon (v : Byte) : Statement (.wrMon v) := ⟨rfl, _, _, rfl, by decide, rfl⟩
theorem wrYear (v : Byte) : Statement (.wrYear v) := ⟨rfl, _, _, rfl, by decide, rfl⟩
theorem rdSec : Statement .rdSec := ⟨rfl, _, _, rfl, by decide, rfl⟩
theorem rdMin : Statement .rdMin := ⟨rfl, _, _, rfl, by decide, rfl⟩
theorem rdHour : Statement .rdHour := ⟨rfl, _, _, rfl, by decide, rfl⟩
theorem rdDay : Statement .rdDay := ⟨rfl, _, _, rfl, by decide, rfl⟩
theorem rdMon : Statement .rdMon := ⟨rfl, _, _, rfl, by decide, rfl⟩
theorem rdYear : Statement .rdYear := ⟨rfl, _, _, rfl, by decide, rfl⟩
theorem wrCtrl : Statement .wrCtrl := ⟨rfl, _, _, rfl, by decide, rfl⟩

end Sys2Proof.Laws.IssuedWord
end

