-- ==== Sys2Proof/Laws/Trace.lean ====
section
/-! SUPPORT. The observer of the bus reads a trace event by event. -/

namespace Sys2Proof.Machine

theorem observeAll_append (p : Option BusPhase) (xs ys : List BusEvent) :
    observeAll p (xs ++ ys) = observeAll (observeAll p xs) ys := by
  simp [observeAll, List.foldl_append]

@[simp] theorem observeAll_nil (p : Option BusPhase) : observeAll p [] = p := rfl

@[simp] theorem observeAll_cons (p : Option BusPhase) (e : BusEvent) (es : List BusEvent) :
    observeAll p (e :: es) = observeAll (p.bind (fun r => r.observe e)) es := rfl

/-- An illegal event is never forgiven. -/
theorem observeAll_none (es : List BusEvent) : observeAll none es = none := by
  induction es with
  | nil => rfl
  | cons e es ih => simpa using ih

/-- The phase after a longer trace. -/
theorem phaseOf_append (xs ys : List BusEvent) : phaseOf (xs ++ ys) = observeAll (phaseOf xs) ys :=
  observeAll_append _ xs ys

/-- A complete transaction, observed from a released bus that expects it. -/
theorem observe_transaction (e : Expect) (a d i0 i1 : Byte) (he : e ≠ .settleDelay) (ha : e.allows a = true)
    (hd : dataAllowed a d = true) :
    observeAll (some (.released e)) (transactionEvents a i0 d i1) = some (.released (Expect.afterAddress a)) := by
  cases e <;> simp_all [transactionEvents, BusPhase.observe]

end Sys2Proof.Machine
end

