-- ==== Sys2Proof/Laws/Sequencer.lean ====
section
/-! SUPPORT. What a step can do, case by case, and runs of the host's core. -/

namespace Sys2Proof.Machine

/-- A step with chip-select asserted leaves the state as it is. -/
theorem step_selected (s : State) (h : s.cs = .asserted) : step s = .next s := by simp [step, h]

theorem step_idle (s : State) (h : s.cs = .deasserted) (ha : s.activity = .idle) : step s = idleStep s := by
  simp [step, h, ha]

theorem step_settling (s : State) (h : s.cs = .deasserted) (ha : s.activity = .settling) :
    step s = .next { s.wait Config.settle with inited := true, activity := .idle } := by simp [step, h, ha, settleStep]

theorem step_decoding (s : State) (h : s.cs = .deasserted) (ha : s.activity = .decoding) : step s = decodeStep s := by
  simp [step, h, ha]

theorem step_transacting (s : State) (op : Op) (h : s.cs = .deasserted) (ha : s.activity = .transacting op) :
    step s = transactionStep op s := by simp [step, h, ha]

/-- Everything the advance can do: `idx` moves on, or the operation goes to its next part. -/
theorem State.advance_cases (op : Op) (s : State) :
    (op = .init ∧ s.advance op = { s with activity := .settling })
    ∨ (op ≠ .init ∧ ∃ j, nextIdx s.idx = some j ∧ s.advance op = { s with idx := j })
    ∨ (op = .set ∧ nextIdx s.idx = none ∧ s.advance op = s.complete)
    ∨ (op = .read ∧ nextIdx s.idx = none ∧ s.advance op = { s with activity := .decoding }) := by
  cases op <;> cases h : nextIdx s.idx <;> simp [State.advance, h]

/-- The advance leaves the bus, the records and the peripheral alone. -/
theorem State.advance_frame (op : Op) (s : State) :
    (s.advance op).cs = s.cs ∧ (s.advance op).trace = s.trace ∧ (s.advance op).returned = s.returned
    ∧ (s.advance op).requests = s.requests ∧ (s.advance op).inited = s.inited ∧ (s.advance op).cells = s.cells
    ∧ (s.advance op).answersLeft = s.answersLeft ∧ (s.advance op).draws = s.draws := by
  rcases s.advance_cases op with ⟨_, h⟩ | ⟨_, j, _, h⟩ | ⟨_, _, h⟩ | ⟨_, _, h⟩ <;> simp [h]

/-- Everything that follows exec when it ends in a next state: the block is stuck in the transaction, or it advances. -/
theorem afterExec_next (op : Op) (o : Result) (t : State) (h : afterExec op o = .next t) :
    ∃ u, o = .next u ∧ ((u.cs = .asserted ∧ t = u) ∨ (u.cs = .deasserted ∧ t = u.advance op)) := by
  cases o with
  | next u =>
    refine ⟨u, rfl, ?_⟩
    simp only [afterExec] at h
    split at h <;> rename_i hc <;> cases h
    · exact .inl ⟨hc, rfl⟩
    · exact .inr ⟨hc, rfl⟩
  | fault f => cases h
  | refused r => cases h

/-- Everything a transaction's step can do when it answers a next state. -/
theorem transactionStep_next (op : Op) (s t : State) (h : transactionStep op s = .next t) :
    ∃ i u, exec i s = .next u ∧ (∃ bytes, fetch op s = .ok bytes ∧ decode bytes = .ok i)
      ∧ ((u.cs = .asserted ∧ t = u) ∨ (u.cs = .deasserted ∧ t = u.advance op)) := by
  unfold transactionStep at h
  split at h
  · cases h
  split at h
  · cases h
  rename_i hf _ _ hd
  obtain ⟨u, h1, h2⟩ := afterExec_next _ _ _ h
  exact ⟨_, u, h1, ⟨_, hf, hd⟩, h2⟩

/-- `next(i)` stays inside FIELD_IDX. -/
theorem nextIdx_mem (i j : SeqIndex) (h : nextIdx i = some j) : i ∈ Config.fieldIdx ∧ j ∈ Config.fieldIdx := by
  revert i j; decide

/-- DECODE_FRAME of a filled frame. -/
theorem decodeFrame_filled (b0 b1 b2 b4 b5 b6 : Byte) (b3 : Option Byte) :
    decodeFrame ⟨some b0, some b1, some b2, b3, some b4, some b5, some b6⟩
      = .ok ⟨decYear b6, decMon b5, decDay b4, decHour b2, decMin b1, decSec b0⟩ := rfl

/-! ### Runs -/

theorem run_zero (s : State) : Sys2Proof.core.run 0 s = .next s := rfl

theorem run_succ (n : Nat) (s t : State) (h : step s = .next t) :
    Sys2Proof.core.run (n + 1) s = Sys2Proof.core.run n t := by
  have hs : Sys2Proof.core.step s = .next t := h
  simp only [Host.Core.run, hs]

/-- A run that ends in a next state took its first step to one. -/
theorem run_succ_next (n : Nat) (s u : State) (h : Sys2Proof.core.run (n + 1) s = .next u) :
    ∃ t, step s = .next t ∧ Sys2Proof.core.run n t = .next u := by
  simp only [Host.Core.run] at h
  split at h
  · rename_i t hs; exact ⟨t, hs, h⟩
  · cases h
  · cases h

/-- A state that steps to itself stays for ever. -/
theorem run_fixed (s : State) (h : step s = .next s) (n : Nat) : Sys2Proof.core.run n s = .next s := by
  induction n with
  | zero => rfl
  | succ n ih => rw [run_succ n s s h, ih]

/-- Runs compose. -/
theorem run_add (m n : Nat) (s t : State) (h : Sys2Proof.core.run m s = .next t) :
    Sys2Proof.core.run (m + n) s = Sys2Proof.core.run n t := by
  induction m generalizing s with
  | zero => cases h; simp
  | succ m ih =>
    obtain ⟨u, hu, hr⟩ := run_succ_next m s t h
    rw [show m + 1 + n = (m + n) + 1 by omega, run_succ (m + n) s u hu, ih u hr]

end Sys2Proof.Machine
end

