-- ==== Sys2Proof/Tests/Slice0.lean ====
section
/-! SUPPORT. Our own tests: decoding, well-formedness, the codec's vectors, one step of each transaction, and a witness
for the hypotheses of each statement. Expected values are those of spec/95_test_vectors.md (named S, V or P there), of
the opcode map's table (30_encoding.md R70) and of the rules' own corner cases. -/

namespace Sys2Proof.Tests

open Sys2Proof Sys2Proof.Machine

/-! ### Helpers -/

/-- The reset state under the simulator, with the registers of program P3 (95_test_vectors.md). -/
def sim : State :=
  { State.reset with oracle := .simulator, cells := [(1, 0x30#8), (2, 0x14#8), (4, 0x15#8), (5, 0x06#8), (6, 0x23#8)] }

/-- The same with the second register holding 0x45 (V6). -/
def sim45 : State := { sim with cells := [(0, 0x45#8)] }

def traceOf (o : Result) : List BusEvent :=
  match o with
  | .next t => t.trace
  | .fault _ => []
  | .refused _ => []

def sentOf (o : Result) : List SentEvent := (traceOf o).map BusEvent.sentPart

def cellOf (a : Nat) (o : Result) : Option Byte :=
  match o with
  | .next t => some (t.cells.read a)
  | .fault _ => none
  | .refused _ => none

def slotOf (i : SeqIndex) (o : Result) : Option Byte :=
  match o with
  | .next t => t.frame.get i
  | .fault _ => none
  | .refused _ => none

def isNext (o : Result) : Bool :=
  match o with
  | .next _ => true
  | .fault _ => false
  | .refused _ => false

def decodeWord (w : TransactionWord) : Option Instr :=
  match decode w.bytes with
  | .ok i => some i
  | .error _ => none

/-! ### Well-formedness: an ill-formed term for each check -/

theorem test_word_address_three_ill : TransactionWord.issued 0x0300#16 = false := by decide
theorem test_word_address_83_ill : TransactionWord.issued 0x8300#16 = false := by decide
theorem test_word_read_data_ill : TransactionWord.issued 0x0001#16 = false := by decide
theorem test_word_ctrl_data_ill : TransactionWord.issued 0x8E00#16 = false := by decide
theorem test_word_write_any_data : TransactionWord.issued 0x80FF#16 = true := by decide
theorem test_natural_ill :
    [(⟨1899, 6, 15, 14, 30, 0⟩ : CivilTime), ⟨2023, 0, 15, 14, 30, 0⟩, ⟨2023, 13, 15, 14, 30, 0⟩, ⟨2023, 6, 0, 14, 30, 0⟩,
      ⟨2023, 6, 32, 14, 30, 0⟩, ⟨2023, 6, 15, 24, 30, 0⟩, ⟨2023, 6, 15, 14, 60, 0⟩, ⟨2023, 6, 15, 14, 30, 60⟩].map
      CivilTime.natural = [false, false, false, false, false, false, false, false] := by decide
theorem test_natural_edges :
    CivilTime.natural ⟨1900, 1, 1, 0, 0, 0⟩ = true ∧ CivilTime.natural ⟨9999, 12, 31, 23, 59, 59⟩ = true := by decide
/-- A five-digit year is not natural (R24), and its encoder is defined on it (40_field_codec.md R106). -/
theorem test_five_digit_year :
    CivilTime.natural ⟨10000, 1, 1, 0, 0, 0⟩ = false ∧ CivilTime.inEncodeDomain ⟨10000, 1, 1, 0, 0, 0⟩ = true
    ∧ CivilTime.inEncodeDomain ⟨1899, 1, 1, 0, 0, 0⟩ = false := by decide
theorem test_fits_ill :
    [(⟨16384, 0, 0, 0, 0, 0⟩ : CivilTime), ⟨0, 32, 0, 0, 0, 0⟩, ⟨0, 0, 64, 0, 0, 0⟩, ⟨0, 0, 0, 64, 0, 0⟩,
      ⟨0, 0, 0, 0, 128, 0⟩, ⟨0, 0, 0, 0, 0, 128⟩].map CivilTime.fits
      = [false, false, false, false, false, false] := by decide

/-! ### Decoding: every row's word, bit by bit from the table of 30_encoding.md R70 -/

theorem test_decode_writes :
    [0b1000000001000101#16, 0b1000000100110000#16, 0b1000001000100011#16, 0b1000010000110001#16, 0b1000010100010010#16,
      0b1000011010011001#16].map decodeWord
      = [some (.wrSec 0x45#8), some (.wrMin 0x30#8), some (.wrHour 0x23#8), some (.wrDay 0x31#8), some (.wrMon 0x12#8),
          some (.wrYear 0x99#8)] := by decide
theorem test_decode_reads :
    [0b0000000000000000#16, 0b0000000100000000#16, 0b0000001000000000#16, 0b0000010000000000#16, 0b0000010100000000#16,
      0b0000011000000000#16].map decodeWord
      = [some .rdSec, some .rdMin, some .rdHour, some .rdDay, some .rdMon, some .rdYear] := by decide
theorem test_decode_ctrl : decodeWord 0b1000111001100000#16 = some .wrCtrl := by decide
theorem test_decode_rejects_by_name :
    decode [0x03#8, 0x00#8] = .error (.addressNeverIssued 0x03#8)
    ∧ decode [0x83#8, 0x00#8] = .error (.addressNeverIssued 0x83#8)
    ∧ decode [0x06#8, 0x01#8] = .error (.readDataNotDummy 0x01#8)
    ∧ decode [0x8E#8, 0x61#8] = .error (.ctrlDataNeverWritten 0x61#8)
    ∧ decode [0x80#8] = .error .notTwoBytes ∧ decode [0x80#8, 0x45#8, 0x00#8] = .error .notTwoBytes := by
  refine ⟨rfl, rfl, rfl, rfl, rfl, rfl⟩
theorem test_table_word : decodeTableWord 16 0x8645 = some (.wrYear 0x45#8) ∧ decodeTableWord 16 0x0300 = none := by decide

/-! ### The codec: vectors V1 and V3, examples S1, S2, S5 -/

theorem test_encSec : [0, 1, 9, 10, 45, 59].map encSec = [0x00#8, 0x01#8, 0x09#8, 0x10#8, 0x45#8, 0x59#8] := by decide
theorem test_encMin : [0, 9, 30, 59].map encMin = [0x00#8, 0x09#8, 0x30#8, 0x59#8] := by decide
theorem test_encHour : [0, 5, 9, 10, 14, 19, 20, 23].map encHour
    = [0x00#8, 0x05#8, 0x09#8, 0x10#8, 0x14#8, 0x19#8, 0x20#8, 0x23#8] := by decide
theorem test_encDay : [1, 9, 10, 15, 29, 30, 31].map encDay
    = [0x01#8, 0x09#8, 0x10#8, 0x15#8, 0x29#8, 0x30#8, 0x31#8] := by decide
theorem test_encMon : [1, 6, 9, 10, 12].map encMon = [0x01#8, 0x06#8, 0x09#8, 0x10#8, 0x12#8] := by decide
theorem test_encYear : [1900, 1923, 1970, 1999, 2000, 2023, 2099, 2100, 9999].map encYear
    = [0x00#8, 0x23#8, 0x70#8, 0x99#8, 0x00#8, 0x23#8, 0x99#8, 0x00#8, 0x99#8] := by decide
theorem test_decSec : [0x00#8, 0x45#8, 0x59#8, 0xC5#8, 0x80#8, 0x5A#8, 0x7F#8, 0xFF#8].map decSec
    = [0, 45, 59, 45, 0, 60, 85, 85] := by decide
theorem test_decMin : [0x30#8, 0x45#8, 0xC5#8, 0x5A#8, 0xFF#8].map decMin = [30, 45, 45, 60, 85] := by decide
theorem test_decHour : [0x00#8, 0x05#8, 0x10#8, 0x14#8, 0x20#8, 0x23#8, 0x30#8, 0x39#8, 0x3F#8, 0x54#8, 0x64#8, 0x2F#8,
      0xFF#8].map decHour = [0, 5, 10, 14, 20, 23, 0, 9, 15, 14, 24, 35, 15] := by decide
theorem test_decDay : [0x00#8, 0x01#8, 0x15#8, 0x31#8, 0x71#8, 0x3F#8, 0xFF#8].map decDay
    = [0, 1, 15, 31, 31, 45, 45] := by decide
theorem test_decMon : [0x00#8, 0x06#8, 0x12#8, 0x26#8, 0x32#8, 0x86#8, 0x1F#8, 0xFF#8].map decMon
    = [0, 6, 12, 6, 12, 6, 25, 25] := by decide
theorem test_decYear : [0x00#8, 0x23#8, 0x70#8, 0x99#8, 0x9A#8, 0xC3#8, 0xFF#8].map decYear
    = [1900, 1923, 1970, 1999, 2000, 2023, 2065] := by decide
/-- V4. -/
theorem test_encodeFrame : encodeFrame ⟨2000, 2, 29, 20, 10, 5⟩
    = ⟨some 0x05#8, some 0x10#8, some 0x20#8, none, some 0x29#8, some 0x02#8, some 0x00#8⟩ := by decide
/-- V4, P5. -/
theorem test_decodeFrame :
    decodeFrame ⟨some 0xFF#8, some 0xFF#8, some 0xFF#8, none, some 0xFF#8, some 0xFF#8, some 0xFF#8⟩
      = .ok ⟨2065, 25, 45, 15, 85, 85⟩ := rfl

/-! ### One step of each transaction (V6) -/

theorem test_wrSec : traceOf (exec (.wrSec 0x45#8) sim) = [.csOn, .xfer 0x80#8 0, .xfer 0x45#8 0, .csOff]
    ∧ cellOf 0 (exec (.wrSec 0x45#8) sim) = some 0x45#8 := by decide
theorem test_wrMin : traceOf (exec (.wrMin 0x31#8) sim) = [.csOn, .xfer 0x81#8 0, .xfer 0x31#8 0, .csOff]
    ∧ cellOf 1 (exec (.wrMin 0x31#8) sim) = some 0x31#8 := by decide
theorem test_wrHour : traceOf (exec (.wrHour 0x14#8) sim45) = [.csOn, .xfer 0x82#8 0, .xfer 0x14#8 0, .csOff]
    ∧ cellOf 2 (exec (.wrHour 0x14#8) sim45) = some 0x14#8 := by decide
theorem test_wrDay : traceOf (exec (.wrDay 0x15#8) sim45) = [.csOn, .xfer 0x84#8 0, .xfer 0x15#8 0, .csOff]
    ∧ cellOf 4 (exec (.wrDay 0x15#8) sim45) = some 0x15#8 := by decide
theorem test_wrMon : traceOf (exec (.wrMon 0x06#8) sim45) = [.csOn, .xfer 0x85#8 0, .xfer 0x06#8 0, .csOff]
    ∧ cellOf 5 (exec (.wrMon 0x06#8) sim45) = some 0x06#8 := by decide
theorem test_wrYear : traceOf (exec (.wrYear 0x23#8) sim45) = [.csOn, .xfer 0x86#8 0, .xfer 0x23#8 0, .csOff]
    ∧ cellOf 6 (exec (.wrYear 0x23#8) sim45) = some 0x23#8 := by decide
theorem test_wrCtrl : traceOf (exec .wrCtrl sim) = [.csOn, .xfer 0x8E#8 0, .xfer 0x60#8 0, .csOff]
    ∧ cellOf 0x0E (exec .wrCtrl sim) = some 0x60#8 := by decide
theorem test_rdSec : traceOf (exec .rdSec sim45) = [.csOn, .xfer 0x00#8 0, .xfer 0x00#8 0x45#8, .csOff]
    ∧ slotOf 0#3 (exec .rdSec sim45) = some 0x45#8 := by decide
theorem test_rdMin : traceOf (exec .rdMin sim) = [.csOn, .xfer 0x01#8 0, .xfer 0x00#8 0x30#8, .csOff]
    ∧ slotOf 1#3 (exec .rdMin sim) = some 0x30#8 := by decide
theorem test_rdHour : traceOf (exec .rdHour sim) = [.csOn, .xfer 0x02#8 0, .xfer 0x00#8 0x14#8, .csOff]
    ∧ slotOf 2#3 (exec .rdHour sim) = some 0x14#8 := by decide
theorem test_rdDay : traceOf (exec .rdDay sim) = [.csOn, .xfer 0x04#8 0, .xfer 0x00#8 0x15#8, .csOff]
    ∧ slotOf 4#3 (exec .rdDay sim) = some 0x15#8 := by decide
theorem test_rdMon : traceOf (exec .rdMon sim) = [.csOn, .xfer 0x05#8 0, .xfer 0x00#8 0x06#8, .csOff]
    ∧ slotOf 5#3 (exec .rdMon sim) = some 0x06#8 := by decide
theorem test_rdYear : traceOf (exec .rdYear sim) = [.csOn, .xfer 0x06#8 0, .xfer 0x00#8 0x23#8, .csOff]
    ∧ slotOf 6#3 (exec .rdYear sim) = some 0x23#8 := by decide

/-- The first step after reset runs a table word: the bytes sent, whatever comes back. -/
theorem test_first_step_runs_a_table_word :
    sentOf (step (State.reset.withFetchWord 16 0x84FF)) = [.csOn, .sent 0x84#8, .sent 0xFF#8, .csOff]
    ∧ sentOf (step (State.reset.withFetchWord 16 0x0600)) = [.csOn, .sent 0x06#8, .sent 0x00#8, .csOff]
    ∧ sentOf (step (State.reset.withFetchWord 16 0x8E60)) = [.csOn, .sent 0x8E#8, .sent 0x60#8, .csOff] := by decide
/-- A word off the table is refused (20_memory.md R49). -/
theorem test_word_off_the_table_is_refused :
    isNext (step (State.reset.withFetchWord 16 0x0300)) = false ∧ isNext (step (State.reset.withFetchWord 16 0x8E61)) = false := by
  decide

/-! ### Witnesses: for each statement with hypotheses, a state and operands that meet them, at the edges -/

/-- The scenario S5, natural in every field. -/
def scenario : CivilTime := ⟨2023, 6, 15, 14, 30, 0⟩
/-- The top of the lossless range (P4). -/
def topTime : CivilTime := ⟨1999, 12, 31, 23, 59, 59⟩

/-- The bus answers exactly two more transfers. -/
def twoLeft : State := { State.reset with answersLeft := some 2 }
/-- Chip-select asserted inside INIT: a stuck block. -/
def stuckInit : State := { State.reset with cs := .asserted, activity := .transacting .init, trace := [.csOn], answersLeft := some 0 }
/-- INIT requested. -/
def asksInit : State := { State.reset with requests := [.init], answersLeft := some 12 }
/-- SET_DATETIME requested, the bus answering just the twelve transfers it takes. -/
def asksSet : State := { State.reset with requests := [.setDatetime scenario], answersLeft := some 12 }
/-- READ_DATETIME requested. -/
def asksRead : State := { State.reset with requests := [.readDatetime], answersLeft := some 12 }
/-- SET_DATETIME then READ_DATETIME under the simulator, after INIT. -/
def asksBoth : State :=
  { State.reset with inited := true, oracle := .simulator, requests := [.setDatetime scenario, .readDatetime], answersLeft := some 24 }
/-- WR.CTRL is due. -/
def ctrlDue : State := { State.reset with activity := .transacting .init }
/-- WR.SEC is due. -/
def setDue : State := State.beginSet scenario State.reset
/-- RD.SEC is due. -/
def readDue : State := State.beginRead State.reset
/-- INIT settles, its control write done. -/
def settling : State :=
  { State.reset with activity := .settling, trace := [.csOn, .xfer 0x8E#8 0, .xfer 0x60#8 0, .csOff] }
/-- INIT is complete. -/
def inited : State :=
  { State.reset with inited := true, trace := [.csOn, .xfer 0x8E#8 0, .xfer 0x60#8 0, .csOff, .wait 10] }

theorem witness_PlainEncodersPackDecimalDigits :
    ((0 ≤ 59 ∧ 59 ≤ 59) ∧ encSec 59 = 0x59#8 ∧ encMin 59 = 0x59#8) ∧ ((1 ≤ 31 ∧ 31 ≤ 31) ∧ encDay 1 = 0x01#8 ∧ encDay 31 = 0x31#8)
    ∧ ((1 ≤ 12 ∧ 12 ≤ 12) ∧ encMon 1 = 0x01#8 ∧ encMon 12 = 0x12#8) := by decide
theorem witness_EncodersOutsideTheirDomainsAreFree :
    59 < 60 ∧ 23 < 24 ∧ (0 = 0 ∨ 31 < 0) ∧ (32 = 0 ∨ 31 < 32) ∧ (0 = 0 ∨ 12 < 0) ∧ (13 = 0 ∨ 12 < 13) ∧ 1899 < 1900
    ∧ topTime.inEncodeDomain = true := by decide
theorem witness_HourEncoderUsesTheTensCode : 23 ≤ 23 ∧ encHour 23 = 0x23#8 := by decide
theorem witness_YearEncoderKeepsTwoDigits : 1900 ≤ 1900 ∧ encYear 1900 = 0x00#8 := by decide
theorem witness_HourDecoderIsNotLinear :
    (0x30#8).extractLsb' 4 2 = 0b11#2 ∧ (0x20#8).extractLsb' 4 2 ≠ 0b11#2 ∧ 23 ≤ 23 := by decide
theorem witness_BitsAboveTheTensFieldAreIgnoredAndWrittenZero :
    (0xC5#8 &&& 0x7F#8 = 0x45#8 &&& 0x7F#8) ∧ (0x54#8 &&& 0x3F#8 = 0x14#8 &&& 0x3F#8) ∧ (0x86#8 &&& 0x1F#8 = 0x06#8 &&& 0x1F#8)
    ∧ topTime.inEncodeDomain = true := by decide
theorem witness_DecodingAnUnfilledFrameIsAModelFault : Frame.empty.get (Field.index .year) = none := by decide
theorem witness_CivilTimeSurvivesTheFrame : topTime.natural = true ∧ topTime.year ≤ 1999 := by decide
theorem witness_EncodedFrameSurvivesTheCivilTime : scenario.inEncodeDomain = true := by decide
theorem witness_CenturyIsLostOnEncode : 1900 ≤ 2000 ∧ decYear (encYear 2000) = 1900 := by decide
theorem witness_DecodedTimeFitsItsWidths :
    decodeFrame ⟨some 0xFF#8, some 0xFF#8, some 0xFF#8, none, some 0xFF#8, some 0xFF#8, some 0xFF#8⟩
      = .ok ⟨2065, 25, 45, 15, 85, 85⟩ := rfl
theorem witness_DecodeAndEncodeAgree : (Instr.wrSec 0xFF#8).wellFormed = true ∧ decode [0x80#8, 0xFF#8] = .ok (.wrSec 0xFF#8) :=
  ⟨rfl, rfl⟩
theorem witness_OnlyTheThirteenTransactionsDecode :
    0x03#8 ∉ issuedAddresses ∧ 0x8F#8 ∉ issuedAddresses ∧ [0x80#8].length ≠ 2 := by decide
theorem witness_WireBitsAreTheWordMostSignificantFirst : encode .wrCtrl = [0x8E#8, 0x60#8] := rfl
/-- For the three statements of a completed transaction: DateTimeWritesSendTheirByte, ControlWriteSendsItsFixedBytes,
DateTimeReadsCaptureTheAnswer. -/
theorem witness_CompletedTransactions : twoLeft.cs = .deasserted ∧ twoLeft.busAnswers 2 = true ∧ State.reset.busAnswers 2 = true := by
  decide
/-- For ChipSelectBracketsTwoTransfers and TransactionFrame: a next state, completed, of a write and of a read; a byte of
the image not stored to and a slot not captured into. -/
theorem witness_TransactionFrame :
    (match exec (.wrSec 0x45#8) twoLeft with | .next t => t.cs | _ => .asserted) = .deasserted
    ∧ (match exec .rdYear twoLeft with | .next t => t.cs | _ => .asserted) = .deasserted
    ∧ storesTo (.wrSec 0x45#8) = some 0#7 ∧ 1 ≠ (0#7).toNat ∧ capturesInto .rdYear = some .year ∧ 5#3 ≠ Field.index .year
    ∧ storesTo .rdYear ≠ some Config.ctrlIndex := by decide
theorem witness_UnansweredTransactionStaysSelected :
    ({ State.reset with answersLeft := some 0 } : State).cs = .deasserted ∧ ({ State.reset with answersLeft := some 1 } : State).cs = .deasserted
    ∧ encode .rdSec = [0x00#8, 0x00#8] := by decide
theorem witness_TransactionNeedsChipSelectReleased : stuckInit.cs = .asserted := rfl
theorem witness_SimulatorIsAStaticRegisterFile :
    sim.oracle = .simulator ∧ sim.cells.wf = true ∧ encode (.wrSec 0x45#8) = [0x80#8, 0x45#8] ∧ encode .rdYear = [0x06#8, 0x00#8]
    ∧ (match exec (.wrSec 0x45#8) sim with | .next t => t.cs | _ => .asserted) = .deasserted
    ∧ (match exec .rdYear sim with | .next t => t.cs | _ => .asserted) = .deasserted
    ∧ storesTo (.wrSec 0x45#8) = some 0#7 ∧ capturesInto .rdYear = some .year := by decide
theorem witness_SetThenReadReturnsTheTimeWithoutItsCentury :
    asksBoth.oracle = .simulator ∧ asksBoth.inited = true ∧ asksBoth.cells.wf = true ∧ asksBoth.cs = .deasserted
    ∧ asksBoth.activity = .idle ∧ asksBoth.busAnswers 24 = true ∧ asksBoth.requests = .setDatetime scenario :: .readDatetime :: []
    ∧ scenario.inEncodeDomain = true := by decide
/-- WR.CTRL, WR.SEC and RD.SEC due, each completing; the second clause's exec stays selected. -/
theorem witness_StepRunsTheDecodedTransaction :
    (ctrlDue.cs = .deasserted ∧ ctrlDue.activity = .transacting .init)
    ∧ (setDue.cs = .deasserted ∧ setDue.activity = .transacting .set)
    ∧ (readDue.cs = .deasserted ∧ readDue.activity = .transacting .read)
    ∧ (match exec .rdSec readDue with | .next t => t.cs | _ => .asserted) = .deasserted
    ∧ (match exec .rdSec { readDue with answersLeft := some 0 } with | .next t => t.cs | _ => .deasserted) = .asserted := by
  decide
theorem witness_StepRunsTheDecodedTransaction_fetch :
    fetch .init ctrlDue = .ok [0x8E#8, 0x60#8] ∧ fetch .set setDue = .ok [0x80#8, 0x00#8] ∧ fetch .read readDue = .ok [0x00#8, 0x00#8]
    ∧ decode [0x8E#8, 0x60#8] = .ok .wrCtrl ∧ decode [0x80#8, 0x00#8] = .ok (.wrSec 0x00#8) ∧ decode [0x00#8, 0x00#8] = .ok .rdSec :=
  ⟨rfl, rfl, rfl, rfl, rfl, rfl⟩
theorem witness_FetchFormsTheWordOfTheOperation :
    setDue.frame.get setDue.idx = some 0x00#8 ∧ readDue.frame.get readDue.idx = none := by decide
theorem witness_IndexThreeAndSevenStopByName :
    ({ readDue with idx := 3#3 } : State).cs = .deasserted ∧ ({ readDue with idx := 7#3 } : State).activity = .transacting .read
    ∧ ({ setDue with idx := 3#3 } : State).activity = .transacting .set ∧ setDue.frame.dow = none := by decide
theorem witness_IdxAdvancesInRegisterOrder :
    nextIdx setDue.idx = some 1#3 ∧ ({ setDue with idx := 6#3 } : State).idx = 6#3 := by decide
theorem witness_InitWritesControlThenSettles :
    asksInit.cs = .deasserted ∧ asksInit.activity = .idle ∧ asksInit.requests = .init :: [] ∧ asksInit.busAnswers 2 = true := by decide
theorem witness_SetDatetimeWritesSixRegisters :
    asksSet.cs = .deasserted ∧ asksSet.activity = .idle ∧ asksSet.requests = .setDatetime scenario :: []
    ∧ asksSet.busAnswers 12 = true := by decide
theorem witness_ReadDatetimeReadsSixRegisters :
    asksRead.cs = .deasserted ∧ asksRead.activity = .idle ∧ asksRead.requests = .readDatetime :: [] ∧ asksRead.busAnswers 12 = true := by
  decide
/-- Each of the three requests. -/
theorem witness_OperationsHaveTheirTransactionCount :
    (asksInit.requests = .init :: [] ∧ asksInit.busAnswers 12 = true) ∧ asksSet.requests = .setDatetime scenario :: []
    ∧ asksRead.requests = .readDatetime :: [] := by decide
theorem witness_RequestsAreTakenOnlyWhenIdle :
    setDue.busy = true ∧ State.reset.busy = false ∧ isNext (step setDue) = true := by decide
theorem witness_StuckBusBlocksForEver :
    ({ ctrlDue with answersLeft := some 1 } : State).cs = .deasserted
    ∧ ({ ctrlDue with answersLeft := some 1 } : State).activity = .transacting .init
    ∧ ({ ctrlDue with answersLeft := some 1 } : State).busAnswers 2 = false
    ∧ ({ ctrlDue with answersLeft := some 0 } : State).busAnswers 2 = false := by decide
theorem witness_IdleBlockWaitsForTheHost :
    inited.cs = .deasserted ∧ inited.activity = .idle ∧ inited.requests = [] := by decide
theorem witness_InitedIsNeverRead :
    setDue.activity ≠ .settling ∧ settling.cs = .deasserted ∧ settling.activity = .settling
    ∧ (match step settling with | .next t => t.inited | _ => false) = true ∧ settling.inited = false := by decide
/-- Two states with different answers and different registers, a read due. -/
theorem witness_ControlNeverDependsOnTheAnswers :
    SameControl readDue { readDue with oracle := .simulator, cells := [(0, 0x45#8)], draws := 7 } ∧ isNext (step readDue) = true :=
  ⟨⟨rfl, rfl, rfl, rfl, rfl, rfl, rfl, rfl, fun _ => rfl⟩, by decide⟩
theorem witness_RunsOnlyAppendToTheTrace : Sys2Proof.core.run 1 settling = .next { inited with trace := settling.trace ++ [.wait 10] } := rfl
/-- States of the invariant: in the middle of each operation, stuck, and after INIT. -/
theorem witness_machine_invariant_set : setDue.Inv := ⟨rfl, rfl, by decide, rfl, by decide⟩
theorem witness_machine_invariant_read : readDue.Inv := ⟨rfl, rfl, by decide, rfl, by decide⟩
theorem witness_machine_invariant_settling : settling.Inv := ⟨rfl, rfl, by decide, rfl, by decide⟩
theorem witness_machine_invariant_stuck : stuckInit.Inv := ⟨rfl, rfl, by decide, rfl, by decide⟩
theorem witness_machine_invariant_inited : inited.Inv := ⟨rfl, rfl, by decide, rfl, by decide⟩
/-- For EveryStepKeepsTheMachineInvariant, NoStepOfTheInvariantStops and OperationCompletesIfTheBusAnswers. -/
theorem witness_EveryStepKeepsTheMachineInvariant :
    setDue.Inv ∧ isNext (step setDue) = true ∧ setDue.cs = .deasserted ∧ setDue.answersLeft = none :=
  ⟨witness_machine_invariant_set, by decide, rfl, rfl⟩
theorem witness_OnlyIssuedAddressesFollowChipSelect :
    settling.Inv ∧ settling.trace = [] ++ .csOn :: .xfer 0x8E#8 0 :: [.xfer 0x60#8 0, .csOff] :=
  ⟨witness_machine_invariant_settling, rfl⟩
theorem witness_DelayStandsOnlyAfterTheControlWrite :
    inited.Inv ∧ inited.trace = [.csOn, .xfer 0x8E#8 0, .xfer 0x60#8 0, .csOff] ++ .wait 10 :: [] :=
  ⟨witness_machine_invariant_inited, rfl⟩
/-- F[3] with a value, an illegal trace, and a frame left over are not of the invariant. -/
theorem test_invariant_refuses :
    ({ State.reset with frame := { Frame.empty with dow := some 0 } } : State).frameFits = false
    ∧ ({ State.reset with trace := [.csOn, .xfer 0x03#8 0, .xfer 0 0, .csOff] } : State).traceLegal = false
    ∧ ({ State.reset with trace := [.wait 10] } : State).traceLegal = false := by decide

end Sys2Proof.Tests
end

section
/-! PROOFS. Only the thirteen issued addresses follow a `CS+` (20_memory.md R42, R43): an invariant of the observer of
the bus. -/

namespace Sys2Proof.Machine

/-- Every address byte expected is one of the thirteen (20_memory.md R42). -/
def Expect.AllowsOnlyIssued (e : Expect) : Prop := ∀ a : Byte, e.allows a = true → a ∈ issuedAddresses

/-- Where chip-select is released, or asserted with nothing sent, only the thirteen addresses may come. -/
def BusPhase.ExpectsOnlyIssued : BusPhase → Prop
  | .released e | .selected e => e.AllowsOnlyIssued
  | .addressed _ | .dataDone _ => True

/-! ### What may come is issued -/

theorem anyOperation_allowsOnlyIssued : Expect.anyOperation.AllowsOnlyIssued := by
  intro a h
  have ha : (a = 0x80#8 ∨ a = 0x00#8) ∨ a = 0x8E#8 := by simpa [Expect.allows] using h
  rcases ha with (rfl | rfl) | rfl <;> decide

theorem writeOf_allowsOnlyIssued (i : SeqIndex) (hi : i ∈ Config.fieldIdx) : (Expect.writeOf i).AllowsOnlyIssued := by
  intro a h
  have hw : ∀ j ∈ Config.fieldIdx, j.setWidth 8 + 0x80#8 ∈ issuedAddresses := by decide
  exact of_decide_eq_true h ▸ hw i hi

theorem readOf_allowsOnlyIssued (i : SeqIndex) (hi : i ∈ Config.fieldIdx) : (Expect.readOf i).AllowsOnlyIssued := by
  intro a h
  have hr : ∀ j ∈ Config.fieldIdx, j.setWidth 8 ∈ issuedAddresses := by decide
  exact of_decide_eq_true h ▸ hr i hi

theorem settleDelay_allowsOnlyIssued : Expect.settleDelay.AllowsOnlyIssued := fun _ h => nomatch h

/-- What can follow a transaction: a write or a read of an index transacted, the settle delay, or a new operation. -/
theorem Expect.afterAddress_cases (a : Byte) :
    (∃ i ∈ Config.fieldIdx, Expect.afterAddress a = .writeOf i) ∨ (∃ i ∈ Config.fieldIdx, Expect.afterAddress a = .readOf i)
    ∨ Expect.afterAddress a = .settleDelay ∨ Expect.afterAddress a = .anyOperation := by
  fun_cases Expect.afterAddress a <;> simp [Config.fieldIdx]

theorem afterAddress_allowsOnlyIssued (a : Byte) : (Expect.afterAddress a).AllowsOnlyIssued := by
  rcases Expect.afterAddress_cases a with ⟨i, hi, h⟩ | ⟨i, hi, h⟩ | h | h <;> rw [h]
  · exact writeOf_allowsOnlyIssued i hi
  · exact readOf_allowsOnlyIssued i hi
  · exact settleDelay_allowsOnlyIssued
  · exact anyOperation_allowsOnlyIssued

/-! ### What an observer can see -/

/-- Everything an observer can see, phase by phase. -/
theorem BusPhase.observe_cases (p q : BusPhase) (e : BusEvent) (h : p.observe e = some q) :
    (∃ x, p = .released x ∧ e = .csOn ∧ x ≠ .settleDelay ∧ q = .selected x)
    ∨ (p = .released .settleDelay ∧ e = .wait 10 ∧ q = .released .anyOperation)
    ∨ (∃ x o i, p = .selected x ∧ e = .xfer o i ∧ x.allows o = true ∧ q = .addressed o)
    ∨ (∃ a o i, p = .addressed a ∧ e = .xfer o i ∧ dataAllowed a o = true ∧ q = .dataDone a)
    ∨ (∃ a, p = .dataDone a ∧ e = .csOff ∧ q = .released (Expect.afterAddress a)) := by
  cases p <;> cases e <;> simp_all [BusPhase.observe]

/-- A legal trace was legal from its first event on. -/
theorem observeAll_cons_some (p q : BusPhase) (e : BusEvent) (es : List BusEvent)
    (h : observeAll (some p) (e :: es) = some q) : ∃ r, p.observe e = some r ∧ observeAll (some r) es = some q := by
  simp only [observeAll_cons, Option.bind_some] at h
  cases hr : p.observe e with
  | none => simp [hr, observeAll_none] at h
  | some r => exact ⟨r, rfl, hr ▸ h⟩

/-- A `CS+` and a transfer after it: the transfer sends an address expected where the `CS+` was seen. -/
theorem observe_address (p q : BusPhase) (o i : Byte) (rest : List BusEvent)
    (h : observeAll (some p) (.csOn :: .xfer o i :: rest) = some q) : ∃ x, p = .released x ∧ x.allows o = true := by
  obtain ⟨r, hr, h⟩ := observeAll_cons_some p q _ _ h
  obtain ⟨t, ht, -⟩ := observeAll_cons_some r q _ _ h
  obtain ⟨x, rfl, -, rfl⟩ : ∃ x, p = .released x ∧ x ≠ .settleDelay ∧ r = .selected x := by
    simpa using p.observe_cases r _ hr
  obtain ⟨hx, -⟩ : x.allows o = true ∧ t = .addressed o := by simpa using (BusPhase.selected x).observe_cases t _ ht
  exact ⟨x, rfl, hx⟩

theorem observe_keeps_expectsOnlyIssued (p q : BusPhase) (e : BusEvent) (h : p.observe e = some q)
    (hp : p.ExpectsOnlyIssued) : q.ExpectsOnlyIssued := by
  rcases p.observe_cases q e h with ⟨x, rfl, -, -, rfl⟩ | ⟨-, -, rfl⟩ | ⟨_, _, _, -, -, -, rfl⟩ | ⟨_, _, _, -, -, -, rfl⟩
    | ⟨a, -, -, rfl⟩
  · exact hp
  · exact anyOperation_allowsOnlyIssued
  · trivial
  · trivial
  · exact afterAddress_allowsOnlyIssued a

theorem observeAll_keeps_expectsOnlyIssued (es : List BusEvent) (p q : BusPhase) (h : observeAll (some p) es = some q)
    (hp : p.ExpectsOnlyIssued) : q.ExpectsOnlyIssued := by
  induction es generalizing p with
  | nil => cases h; exact hp
  | cons e es ih =>
    obtain ⟨r, hr, hq⟩ := observeAll_cons_some p q e es h
    exact ih r hq (observe_keeps_expectsOnlyIssued p r e hr hp)

/-- A part of a legal trace that came first was legal. -/
theorem phaseOf_append_some (xs ys : List BusEvent) (q : BusPhase) (h : phaseOf (xs ++ ys) = some q) :
    ∃ p, phaseOf xs = some p ∧ observeAll (some p) ys = some q := by
  rw [phaseOf_append] at h
  cases hp : phaseOf xs with
  | none => simp [hp, observeAll_none] at h
  | some p => exact ⟨p, rfl, hp ▸ h⟩

/-- The trace of a state of the invariant is legal to its end. -/
theorem State.Inv.phaseOf_trace {s : State} (hs : s.Inv) : ∃ q, phaseOf s.trace = some q := by
  have h := hs.trace
  unfold State.traceLegal at h
  split at h
  · exact ⟨_, of_decide_eq_true h⟩
  · rcases (Bool.or_eq_true _ _).mp h with h | h <;> exact ⟨_, of_decide_eq_true h⟩

/-- Settles O47: the observer of the bus, from reset on, expects only the thirteen addresses. -/
theorem onlyIssuedAddressesFollowChipSelect : Obligations.OnlyIssuedAddressesFollowChipSelect := by
  unfold Obligations.OnlyIssuedAddressesFollowChipSelect
  refine ⟨fun s hs before after o i ht => ?_, by decide, by decide⟩
  obtain ⟨q, hq⟩ := hs.phaseOf_trace
  rw [ht] at hq
  obtain ⟨p, hp, hrest⟩ := phaseOf_append_some _ _ q hq
  have hissued : p.ExpectsOnlyIssued := observeAll_keeps_expectsOnlyIssued before _ p hp anyOperation_allowsOnlyIssued
  obtain ⟨x, rfl, hx⟩ := observe_address p q o i after hrest
  exact hissued o hx

end Sys2Proof.Machine
end

section
/-! SUPPORT. The laws of the field codec (40_field_codec.md): packed decimal digits, each encoder on its domain in one
form, each decoder on every byte in one form, and decode after encode. -/

namespace Sys2Proof

/-- All that a civil time in the encoders' domain satisfies (R101 to R106). -/
theorem CivilTime.inEncodeDomain_iff (t : CivilTime) : t.inEncodeDomain = true ↔
    1900 ≤ t.year ∧ (1 ≤ t.month ∧ t.month ≤ 12) ∧ (1 ≤ t.day ∧ t.day ≤ 31) ∧ t.hour ≤ 23 ∧ t.minute ≤ 59
      ∧ t.second ≤ 59 := by
  simp only [CivilTime.inEncodeDomain, Bool.and_eq_true, decide_eq_true_eq]
  tauto

end Sys2Proof

namespace Sys2Proof.Machine

/-! ### Packed decimal digits (30_encoding.md R65) -/

/-- The tens digit stands in the high nibble and the ones digit in the low one. -/
theorem toNat_packBcd {v : Nat} (h : v ≤ 99) : (packBcd v).toNat = v / 10 * 16 + v % 10 := by
  have htens : (v / 10) <<< 4 < 2 ^ 8 := by rw [Nat.shiftLeft_eq]; omega
  have hones : v % 10 < 2 ^ 4 := by omega
  calc (packBcd v).toNat
      = (v / 10) <<< 4 ||| v % 10 := by
        simp only [packBcd, BitVec.toNat_or, BitVec.toNat_shiftLeft, BitVec.toNat_ofNat]
        rw [Nat.mod_eq_of_lt (show v / 10 < 2 ^ 8 by omega), Nat.mod_eq_of_lt htens,
          Nat.mod_eq_of_lt (show v % 10 < 2 ^ 8 by omega)]
    _ = (v / 10) <<< 4 + v % 10 := (Nat.shiftLeft_add_eq_or_of_lt hones _).symm
    _ = v / 10 * 16 + v % 10 := by rw [Nat.shiftLeft_eq]

/-- A larger number packs to a larger byte. -/
theorem packBcd_mono {v w : Nat} (h : v ≤ w) (hw : w ≤ 99) : packBcd v ≤ packBcd w := by
  rw [BitVec.le_def, toNat_packBcd (h.trans hw), toNat_packBcd hw]
  omega

/-- A field of bits from bit 4 up, as a number. -/
theorem toNat_extractLsb'_four (b : Byte) (k : Nat) : (b.extractLsb' 4 k).toNat = b.toNat / 16 % 2 ^ k := by
  rw [BitVec.extractLsb'_toNat, Nat.shiftRight_eq_div_pow]

theorem onesOf_eq (b : Byte) : onesOf b = b.toNat % 16 := by
  rw [onesOf, BitVec.extractLsb'_toNat, Nat.shiftRight_zero]

theorem packBcd_ones {v : Nat} (h : v ≤ 99) : (packBcd v).extractLsb' 0 4 = BitVec.ofNat 4 (v % 10) := by
  apply BitVec.eq_of_toNat_eq
  rw [← onesOf, onesOf_eq, toNat_packBcd h, BitVec.toNat_ofNat]
  omega

/-- A tens field of any width holds the tens digit. -/
theorem packBcd_tens {v : Nat} (h : v ≤ 99) (k : Nat) :
    (packBcd v).extractLsb' 4 k = BitVec.ofNat k (v / 10) := by
  apply BitVec.eq_of_toNat_eq
  rw [toNat_extractLsb'_four, toNat_packBcd h, BitVec.toNat_ofNat]
  congr 1
  omega

/-- The bits above a tens field wide enough for the digit are zero (30_encoding.md R64). -/
theorem packBcd_above {v : Nat} (h : v ≤ 99) (k n : Nat) (hk : v / 10 < 2 ^ k) :
    (packBcd v).extractLsb' (4 + k) n = 0#n := by
  have hbyte : (packBcd v).toNat < 2 ^ (4 + k) := by
    rw [toNat_packBcd h, Nat.pow_add]
    omega
  apply BitVec.eq_of_toNat_eq
  rw [BitVec.extractLsb'_toNat, Nat.shiftRight_eq_div_pow, Nat.div_eq_of_lt hbyte]
  exact Nat.zero_mod _

/-- A packed byte with a tens field of k bits and n bits above it, field by field. -/
theorem packBcd_fields {v : Nat} (h : v ≤ 99) (k n : Nat) (hk : v / 10 < 2 ^ k) :
    (packBcd v).toNat = v / 10 * 16 + v % 10 ∧ (packBcd v).extractLsb' 0 4 = BitVec.ofNat 4 (v % 10)
      ∧ (packBcd v).extractLsb' 4 k = BitVec.ofNat k (v / 10) ∧ (packBcd v).extractLsb' (4 + k) n = 0#n :=
  ⟨toNat_packBcd h, packBcd_ones h, packBcd_tens h k, packBcd_above h k n hk⟩

/-! ### The encoders on their domains (40_field_codec.md R101 to R106) -/

theorem encSec_eq {s : Nat} (h : s ≤ 59) : encSec s = packBcd s := if_pos h

theorem encMin_eq {m : Nat} (h : m ≤ 59) : encMin m = packBcd m := if_pos h

theorem encDay_eq {d : Nat} (h1 : 1 ≤ d) (h : d ≤ 31) : encDay d = packBcd d := if_pos ⟨h1, h⟩

theorem encMon_eq {m : Nat} (h1 : 1 ≤ m) (h : m ≤ 12) : encMon m = packBcd m := if_pos ⟨h1, h⟩

theorem encYear_eq {y : Nat} (h : 1900 ≤ y) : encYear y = packBcd ((y - 1900) % 100) := if_pos h

/-- The code of each tens digit an hour has is the digit itself. -/
theorem hourCode_setWidth : ∀ t < 3, (hourCode t).setWidth 8 = BitVec.ofNat 8 t := by decide

/-- On its domain the hour's re-mapped code is plain BCD (R103). -/
theorem encHour_eq {h : Nat} (hh : h ≤ 23) : encHour h = packBcd h := by
  rw [encHour, if_pos hh, hourCode_setWidth (h / 10) (by omega), packBcd]

/-! ### The decoders on every byte (40_field_codec.md R107 to R112) -/

theorem decSec_eq (b : Byte) : decSec b = b.toNat / 16 % 8 * 10 + b.toNat % 16 := by
  rw [decSec, toNat_extractLsb'_four, onesOf_eq]
  rfl

/-- The minute is decoded by the second's rule. -/
theorem decMin_eq_decSec (b : Byte) : decMin b = decSec b := rfl

theorem decHour_eq (b : Byte) : decHour b = hourTens (b.extractLsb' 4 2) + b.toNat % 16 := by rw [decHour, onesOf_eq]

theorem decDay_eq (b : Byte) : decDay b = b.toNat / 16 % 4 * 10 + b.toNat % 16 := by
  rw [decDay, toNat_extractLsb'_four, onesOf_eq]
  rfl

theorem decMon_eq (b : Byte) : decMon b = b.toNat / 16 % 2 * 10 + b.toNat % 16 := by
  rw [decMon, toNat_extractLsb'_four, onesOf_eq]
  rfl

/-- The year's tens field is the whole high nibble, so nothing is cut off. -/
theorem decYear_eq (b : Byte) : decYear b = 1900 + b.toNat / 16 * 10 + b.toNat % 16 := by
  have hnibble : b.toNat / 16 % 2 ^ 4 = b.toNat / 16 := Nat.mod_eq_of_lt (by omega)
  rw [decYear, toNat_extractLsb'_four, onesOf_eq, hnibble, Config.yearBase]

theorem hourTens_le : ∀ code : BitVec 2, hourTens code ≤ 20 := by decide

/-- Off code 0b11 an hour code is linear. -/
theorem hourTens_linear : ∀ code : BitVec 2, code ≠ 0b11#2 → hourTens code = code.toNat * 10 := by decide

/-! ### Decode after encode -/

theorem decSec_packBcd {v : Nat} (h : v ≤ 79) : decSec (packBcd v) = v := by
  rw [decSec_eq, toNat_packBcd (by omega)]
  omega

theorem decDay_packBcd {v : Nat} (h : v ≤ 39) : decDay (packBcd v) = v := by
  rw [decDay_eq, toNat_packBcd (by omega)]
  omega

theorem decMon_packBcd {v : Nat} (h : v ≤ 19) : decMon (packBcd v) = v := by
  rw [decMon_eq, toNat_packBcd (by omega)]
  omega

theorem decYear_packBcd {v : Nat} (h : v ≤ 99) : decYear (packBcd v) = 1900 + v := by
  rw [decYear_eq, toNat_packBcd h]
  omega

/-- A number below 30 has no code 0b11, so the hour's rule is linear on it. -/
theorem decHour_packBcd {v : Nat} (h : v ≤ 29) : decHour (packBcd v) = v := by
  have hcode : ((packBcd v).extractLsb' 4 2).toNat = v / 10 := by
    rw [packBcd_tens (by omega) 2, BitVec.toNat_ofNat, Nat.mod_eq_of_lt (by omega)]
  have hne : (packBcd v).extractLsb' 4 2 ≠ 0b11#2 := by
    intro e
    have h3 : v / 10 = 3 := hcode.symm.trans (congrArg BitVec.toNat e)
    omega
  rw [decHour_eq, hourTens_linear _ hne, hcode, toNat_packBcd (by omega)]
  omega

/-- The century is dropped, the two digits are kept (R119). -/
theorem decYear_encYear {y : Nat} (h : 1900 ≤ y) : decYear (encYear y) = 1900 + (y - 1900) % 100 := by
  rw [encYear_eq h, decYear_packBcd (by omega)]

/-- DECODE_FRAME after ENCODE_FRAME loses the century and nothing else (R117, R119). -/
theorem decodeFrame_encodeFrame (t : CivilTime) (ht : t.inEncodeDomain = true) :
    decodeFrame (encodeFrame t) = .ok { t with year := 1900 + (t.year - 1900) % 100 } := by
  obtain ⟨hyear, ⟨hmon1, hmon⟩, ⟨hday1, hday⟩, hhour, hmin, hsec⟩ := t.inEncodeDomain_iff.mp ht
  simp only [encodeFrame, decodeFrame_filled, encMux, decYear_encYear hyear, encMon_eq hmon1 hmon, encDay_eq hday1 hday,
    encHour_eq hhour, encMin_eq hmin, encSec_eq hsec, decMin_eq_decSec]
  rw [decMon_packBcd (by omega), decDay_packBcd (by omega), decHour_packBcd (by omega), decSec_packBcd (by omega),
    decSec_packBcd (by omega)]

end Sys2Proof.Machine
end

section
/-! PROOFS. The statements about the field codec (40_field_codec.md R101 to R119): the encoders and decoders field by
field, the multiplexer, the frame functions and the round trip. -/

namespace Sys2Proof.Machine

/-! ### The round trip -/

/-- Settles O11: up to 1999 the year decode gives back is the year encoded. -/
theorem civilTimeSurvivesTheFrame : Obligations.CivilTimeSurvivesTheFrame := by
  unfold Obligations.CivilTimeSurvivesTheFrame
  intro t ht htop
  have hyear : 1900 + (t.year - 1900) % 100 = t.year := by
    have := t.natural_iff.mp ht
    omega
  rw [decodeFrame_encodeFrame t (CivilTime.inEncodeDomain_of_natural ht), hyear]

/-- Settles O13: what is left of a year is its two digits over 1900. -/
theorem centuryIsLostOnEncode : Obligations.CenturyIsLostOnEncode := by
  unfold Obligations.CenturyIsLostOnEncode
  intro y hy
  rw [decYear_encYear hy]
  exact ⟨rfl, by omega⟩

/-! ### The encoders -/

/-- Settles O1: on its domain each of the four is plain BCD, whose digits, zero bits and order are known. -/
theorem plainEncodersPackDecimalDigits : Obligations.PlainEncodersPackDecimalDigits := by
  unfold Obligations.PlainEncodersPackDecimalDigits
  refine ⟨fun s hs => ?sec, fun m hm => ?min, fun d hd1 hd => ?day, fun m hm1 hm => ?mon⟩
  case sec =>
    rw [encSec_eq hs]
    obtain ⟨hnat, hones, htens, habove⟩ := packBcd_fields (v := s) (by omega) 3 1 (by omega)
    exact ⟨hnat, hones, htens, habove, packBcd_mono hs (by omega)⟩
  case min =>
    rw [encMin_eq hm, encSec_eq hm]
    obtain ⟨hnat, hones, htens, habove⟩ := packBcd_fields (v := m) (by omega) 3 1 (by omega)
    exact ⟨hnat, hones, htens, habove, packBcd_mono hm (by omega), rfl⟩
  case day =>
    rw [encDay_eq hd1 hd]
    obtain ⟨hnat, hones, htens, habove⟩ := packBcd_fields (v := d) (by omega) 2 2 (by omega)
    exact ⟨hnat, hones, htens, habove, packBcd_mono hd1 (by omega), packBcd_mono hd (by omega)⟩
  case mon =>
    rw [encMon_eq hm1 hm]
    obtain ⟨hnat, hones, htens, habove⟩ := packBcd_fields (v := m) (by omega) 1 3 (by omega)
    exact ⟨hnat, hones, htens, habove, packBcd_mono hm (by omega)⟩

/-- Settles O3: the re-mapped code of a tens digit 0, 1 or 2 is the digit, so the hour is plain BCD. -/
theorem hourEncoderUsesTheTensCode : Obligations.HourEncoderUsesTheTensCode := by
  unfold Obligations.HourEncoderUsesTheTensCode
  have hcode : ∀ t < 3, BitVec.ofNat 2 t = (if t = 2 then 0b10#2 else if t = 1 then 0b01#2 else 0b00#2)
      ∧ BitVec.ofNat 2 t ≠ 0b11#2 := by decide
  refine ⟨fun h hh => ?_, by decide, by decide, by decide⟩
  obtain ⟨heq, hne⟩ := hcode (h / 10) (by omega)
  obtain ⟨hnat, hones, htens, habove⟩ := packBcd_fields (v := h) (by omega) 2 2 (by omega)
  rw [encHour_eq hh, htens]
  exact ⟨heq, hones, habove, hne, packBcd_mono hh (by omega), hnat⟩

/-- Settles O4: the year is the BCD of a number below 100, whose two digits are at most 9. -/
theorem yearEncoderKeepsTwoDigits : Obligations.YearEncoderKeepsTwoDigits := by
  unfold Obligations.YearEncoderKeepsTwoDigits
  refine ⟨fun y hy => ?_, by decide, by decide, by decide, by decide, by decide, by decide⟩
  have h99 : (y - 1900) % 100 ≤ 99 := by omega
  rw [encYear_eq hy]
  generalize (y - 1900) % 100 = v at h99
  refine ⟨toNat_packBcd h99, ?_, ?_, packBcd_mono h99 le_rfl⟩
  · rw [packBcd_tens h99 4, BitVec.le_def, BitVec.toNat_ofNat]
    exact (Nat.mod_le _ _).trans (show v / 10 ≤ 9 by omega)
  · rw [packBcd_ones h99, BitVec.le_def, BitVec.toNat_ofNat]
    exact (Nat.mod_le _ _).trans (show v % 10 ≤ 9 by omega)

/-! ### The decoders -/

/-- Settles O5: the decoders in numbers; the bounds follow from the widths of their two fields. -/
theorem linearDecodersAddTensAndOnes : Obligations.LinearDecodersAddTensAndOnes := by
  unfold Obligations.LinearDecodersAddTensAndOnes
  intro b
  have hbyte : b.toNat < 256 := b.isLt
  rw [decMin_eq_decSec, decSec_eq, decDay_eq, decMon_eq, decYear_eq]
  omega

/-- Settles O6: an hour's tens field is a code, linear off 0b11; decode inverts because an hour is plain BCD. -/
theorem hourDecoderIsNotLinear : Obligations.HourDecoderIsNotLinear := by
  unfold Obligations.HourDecoderIsNotLinear
  refine ⟨fun b => ⟨decHour_eq b, ?bound, fun hne => ?linear, fun h3 => ?three⟩, fun h hh => ?inverse⟩
  case bound =>
    have htens := hourTens_le (b.extractLsb' 4 2)
    rw [decHour_eq]
    omega
  case linear => rw [decHour_eq, hourTens_linear _ hne]
  case three =>
    rw [decHour_eq, decDay, onesOf_eq, h3]
    exact ⟨Nat.zero_add _, rfl⟩
  case inverse => rw [encHour_eq hh, decHour_packBcd (by omega)]

/-! ### The multiplexer, the demultiplexer and the frame functions -/

/-- Settles O8: every clause is one arm of the multiplexer or of the demultiplexer. -/
theorem multiplexerAndDemultiplexerSelectByField : Obligations.MultiplexerAndDemultiplexerSelectByField := by
  unfold Obligations.MultiplexerAndDemultiplexerSelectByField
  intro t b
  exact ⟨rfl, rfl, rfl, rfl, rfl, rfl, rfl, rfl, rfl, rfl, rfl, rfl⟩

/-- Settles O9: the slots are the multiplexer's bytes; of the time the six demultiplexers start from, no field is
left. -/
theorem frameFunctionsWorkSlotBySlot : Obligations.FrameFunctionsWorkSlotBySlot := by
  unfold Obligations.FrameFunctionsWorkSlotBySlot
  refine ⟨fun t f => ⟨encodeFrame_get t f, encodeFrame_dow t⟩, fun b0 b1 b2 b4 b5 b6 b3 t => ⟨?_, ?_⟩⟩
  · exact decodeFrame_filled b0 b1 b2 b4 b5 b6 b3
  · rw [decodeFrame_filled]
    simp only [decDemux]

end Sys2Proof.Machine
end

section
/-! PROOFS. The statement about the sequence counter (42_sequences.md R163): the table of `next`, and the advance that
follows it in both date-time operations. -/

namespace Sys2Proof.Machine

/-! ### The table of `next` -/

/-- `next` runs through the elements of FIELD_IDX and ends after the last. -/
theorem nextIdx_table :
    nextIdx 0#3 = some 1#3 ∧ nextIdx 1#3 = some 2#3 ∧ nextIdx 2#3 = some 4#3 ∧ nextIdx 4#3 = some 5#3
    ∧ nextIdx 5#3 = some 6#3 ∧ nextIdx 6#3 = none := by decide

/-! ### The advance of the two date-time operations -/

/-- Before the end, every operation that uses `idx` moves it on and does nothing else. -/
theorem State.advance_of_next {op : Op} (hop : op ≠ .init) {s : State} {j : SeqIndex} (h : nextIdx s.idx = some j) :
    s.advance op = { s with idx := j } := by
  cases op with
  | init => exact absurd rfl hop
  | set | read => simp only [State.advance, h]

/-- At the end the writes are over. -/
theorem State.advance_set_of_end {s : State} (h : nextIdx s.idx = none) : s.advance .set = s.complete := by
  simp only [State.advance, h]

/-- At the end the reads go on to the decode. -/
theorem State.advance_read_of_end {s : State} (h : nextIdx s.idx = none) :
    s.advance .read = { s with activity := .decoding } := by
  simp only [State.advance, h]

@[simp] theorem State.complete_busy (s : State) : s.complete.busy = false := rfl

/-- Settles O31: the table by evaluation; the rest by what the advance does before the end and at it, 6 being where
`next` ends. -/
theorem idxAdvancesInRegisterOrder : Obligations.IdxAdvancesInRegisterOrder := by
  unfold Obligations.IdxAdvancesInRegisterOrder
  obtain ⟨h0, h1, h2, h4, h5, h6⟩ := nextIdx_table
  refine ⟨h0, h1, h2, h4, h5, h6, fun t s => ?begins, fun s j hj => ?advances, fun s hs => ?ends⟩
  case begins => exact ⟨s.beginSet_idx t, s.beginRead_idx⟩
  case advances =>
    rw [State.advance_of_next (op := .set) (by decide) hj, State.advance_of_next (op := .read) (by decide) hj]
    exact ⟨rfl, rfl, rfl, rfl⟩
  case ends =>
    have hend : nextIdx s.idx = none := by rw [hs, h6]
    rw [State.advance_set_of_end hend, State.advance_read_of_end hend]
    exact ⟨s.complete_busy, rfl⟩

end Sys2Proof.Machine
end

section
/-! SUPPORT. The laws of the decoder (30_encoding.md R60, R70 to R75): decode inverts encode, what each row of the
opcode map accepts, and an instruction's word among the words issued. -/

namespace Sys2Proof

/-- Every encoding is an issued word (R70): the instruction's row of Laws/PerInstr.lean. -/
theorem encode_issued (i : Instr) : Laws.IssuedWord.Statement i := by
  cases i with
  | wrSec v => exact Laws.IssuedWord.wrSec v
  | wrMin v => exact Laws.IssuedWord.wrMin v
  | wrHour v => exact Laws.IssuedWord.wrHour v
  | wrDay v => exact Laws.IssuedWord.wrDay v
  | wrMon v => exact Laws.IssuedWord.wrMon v
  | wrYear v => exact Laws.IssuedWord.wrYear v
  | rdSec => exact Laws.IssuedWord.rdSec
  | rdMin => exact Laws.IssuedWord.rdMin
  | rdHour => exact Laws.IssuedWord.rdHour
  | rdDay => exact Laws.IssuedWord.rdDay
  | rdMon => exact Laws.IssuedWord.rdMon
  | rdYear => exact Laws.IssuedWord.rdYear
  | wrCtrl => exact Laws.IssuedWord.wrCtrl

/-! ### Decode after encode -/

@[simp] theorem decode_encode (i : Instr) : decode (encode i) = .ok i := by cases i <;> rfl

/-- Two instructions of one encoding are one. -/
theorem encode_injective {i j : Instr} (h : encode i = encode j) : i = j := by
  have hij : (.ok i : Except Reject Instr) = .ok j := by rw [← decode_encode i, h, decode_encode]
  exact Except.ok.inj hij

/-! ### Encode after decode -/

/-- A read row accepts the dummy byte and gives its own instruction (R69). -/
theorem decodeRead_ok {i j : Instr} {d : Byte} (h : decodeRead i d = .ok j) : j = i ∧ d = 0x00#8 := by
  unfold decodeRead at h
  split at h
  · exact ⟨(Except.ok.inj h).symm, ‹_›⟩
  · cases h

/-- The control row accepts 0x60 (R74). -/
theorem decodeCtrl_ok {j : Instr} {d : Byte} (h : decodeCtrl d = .ok j) : j = .wrCtrl ∧ d = 0x60#8 := by
  unfold decodeCtrl at h
  split at h
  · exact ⟨(Except.ok.inj h).symm, ‹_›⟩
  · cases h

/-- A pair that decodes is the encoding of what it decodes to: the six writes, the control write and the six reads in
the order of the opcode map (R70). -/
theorem encode_of_decodePair {a d : Byte} {i : Instr} (h : decodePair a d = .ok i) : encode i = [a, d] := by
  simp only [decodePair, ite_eq_iff] at h
  rcases h with ⟨rfl, h⟩ | ⟨-, ⟨rfl, h⟩ | ⟨-, ⟨rfl, h⟩ | ⟨-, ⟨rfl, h⟩ | ⟨-, ⟨rfl, h⟩ | ⟨-, ⟨rfl, h⟩ | ⟨-, ⟨rfl, h⟩ | ⟨-,
    ⟨rfl, h⟩ | ⟨-, ⟨rfl, h⟩ | ⟨-, ⟨rfl, h⟩ | ⟨-, ⟨rfl, h⟩ | ⟨-, ⟨rfl, h⟩ | ⟨-, ⟨rfl, h⟩ | ⟨-, h⟩⟩⟩⟩⟩⟩⟩⟩⟩⟩⟩⟩⟩
  iterate 6
    · cases h
      rfl
  · obtain ⟨rfl, rfl⟩ := decodeCtrl_ok h
    rfl
  iterate 6
    · obtain ⟨rfl, rfl⟩ := decodeRead_ok h
      rfl
  · cases h

/-- Only two bytes decode (R75). -/
theorem decode_of_length_ne {bytes : List Byte} (h : bytes.length ≠ 2) : decode bytes = .error .notTwoBytes := by
  match bytes, h with
  | [], _ => rfl
  | [_], _ => rfl
  | [_, _], h => exact absurd rfl h
  | _ :: _ :: _ :: _, _ => rfl

/-- A sequence decodes to an instruction exactly when it is its encoding. -/
theorem decode_eq_ok_iff (bytes : List Byte) (i : Instr) : decode bytes = .ok i ↔ bytes = encode i := by
  constructor
  · intro h
    by_cases hlen : bytes.length = 2
    · obtain ⟨a, d, rfl⟩ := List.length_eq_two.mp hlen
      exact (encode_of_decodePair h).symm
    · rw [decode_of_length_ne hlen] at h
      cases h
  · rintro rfl
    exact decode_encode i

/-! ### The words issued (20_memory.md R42) -/

/-- An address off the thirteen is rejected by its name. -/
theorem decode_of_not_issued {a : Byte} (d : Byte) (h : a ∉ issuedAddresses) :
    decode [a, d] = .error (.addressNeverIssued a) := by
  simp only [issuedAddresses, List.mem_cons, List.not_mem_nil, or_false, not_or] at h
  simp only [decode, decodePair, h, if_false]

/-- After a read address only the dummy byte is allowed (R69). -/
theorem dataAllowed_read {a d : Byte} (ha : a.msb = false) : dataAllowed a d = true ↔ d = 0x00#8 := by
  rw [dataAllowed, if_neg (by rw [ha]; decide)]
  exact decide_eq_true_iff

/-- After the control register's address only 0x60 is allowed (R74). -/
theorem dataAllowed_ctrl {d : Byte} : dataAllowed 0x8E#8 d = true ↔ d = 0x60#8 :=
  decide_eq_true_iff

/-- The thirteen addresses, each with a data byte allowed after it, are encodings. -/
theorem exists_encode_of_issued {a d : Byte} (ha : a ∈ issuedAddresses) (hd : dataAllowed a d = true) :
    ∃ i, encode i = [a, d] := by
  have read {i : Instr} {a : Byte} (hi : encode i = [a, 0x00#8]) (hmsb : a.msb = false) (hd : dataAllowed a d = true) :
      ∃ i, encode i = [a, d] := by
    obtain rfl := (dataAllowed_read hmsb).mp hd
    exact ⟨i, hi⟩
  simp only [issuedAddresses, List.mem_cons, List.not_mem_nil, or_false] at ha
  rcases ha with rfl | rfl | rfl | rfl | rfl | rfl | rfl | rfl | rfl | rfl | rfl | rfl | rfl
  · exact read (i := .rdSec) rfl rfl hd
  · exact read (i := .rdMin) rfl rfl hd
  · exact read (i := .rdHour) rfl rfl hd
  · exact read (i := .rdDay) rfl rfl hd
  · exact read (i := .rdMon) rfl rfl hd
  · exact read (i := .rdYear) rfl rfl hd
  · exact ⟨.wrSec d, rfl⟩
  · exact ⟨.wrMin d, rfl⟩
  · exact ⟨.wrHour d, rfl⟩
  · exact ⟨.wrDay d, rfl⟩
  · exact ⟨.wrMon d, rfl⟩
  · exact ⟨.wrYear d, rfl⟩
  · exact ⟨.wrCtrl, by rw [dataAllowed_ctrl.mp hd, encode]⟩

/-- A word decodes exactly when it may be issued. -/
theorem decodes_iff_issued (w : TransactionWord) : (∃ i, decode w.bytes = .ok i) ↔ w.issued = true := by
  simp only [decode_eq_ok_iff, TransactionWord.issued, TransactionWord.bytes, Bool.and_eq_true, List.contains_iff_mem]
  constructor
  · rintro ⟨i, hi⟩
    obtain ⟨-, a, d, he, ha, hd⟩ := encode_issued i
    obtain ⟨rfl, rfl⟩ : w.addressByte = a ∧ w.dataByte = d := by simpa [he] using hi
    exact ⟨ha, hd⟩
  · rintro ⟨ha, hd⟩
    obtain ⟨i, hi⟩ := exists_encode_of_issued ha hd
    exact ⟨i, hi.symm⟩

/-! ### The wire (20_memory.md R44) -/

/-- Bit 7 goes first. -/
theorem wireBits_eq (b : Byte) : wireBits b = (List.range 8).map (fun k => b.getLsbD (7 - k)) := rfl

/-- The first bit of a transaction is 1 exactly for the writes (30_encoding.md R61). -/
theorem directionBit_eq {i : Instr} {a d : Byte} (h : encode i = [a, d]) :
    a.getLsbD 7 = (Machine.storesTo i).isSome := by
  cases i <;> cases h <;> rfl

end Sys2Proof
end

section
/-! PROOFS. The statements about the encoding (30_encoding.md section 4 and 5): decode and encode agree, the words that
decode, and the bits on the wire. -/

namespace Sys2Proof

/-- Settles O16: an encoding decodes to its instruction, and row by row of the opcode map a pair that decodes is the
encoding. -/
theorem decodeAndEncodeAgree : Obligations.DecodeAndEncodeAgree := by
  unfold Obligations.DecodeAndEncodeAgree
  exact fun bytes i _ => decode_eq_ok_iff bytes i

/-- Settles O17: what decodes is an encoding, and the encodings are the words issued. -/
theorem onlyTheThirteenTransactionsDecode : Obligations.OnlyTheThirteenTransactionsDecode := by
  unfold Obligations.OnlyTheThirteenTransactionsDecode
  exact ⟨decodes_iff_issued, fun _ d ha => decode_of_not_issued d ha, fun _ h => decode_of_length_ne h⟩

/-- Settles O15: six words are encodings; the address bytes of the other two are not issued. -/
theorem opcodeMapWordsDecode : Obligations.OpcodeMapWordsDecode := by
  unfold Obligations.OpcodeMapWordsDecode
  exact ⟨decode_encode (.wrSec 0x45#8), decode_encode (.wrHour 0x23#8), decode_encode (.wrYear 0x99#8),
    decode_encode .rdSec, decode_encode .rdYear, decode_encode .wrCtrl, decode_of_not_issued _ (by decide),
    decode_of_not_issued _ (by decide)⟩

/-- Settles O18: both bytes go bit 7 first, and bit 7 of the address byte is the direction. -/
theorem wireBitsAreTheWordMostSignificantFirst : Obligations.WireBitsAreTheWordMostSignificantFirst := by
  unfold Obligations.WireBitsAreTheWordMostSignificantFirst
  intro i a d h
  have haddress : wireBits a = [a.getLsbD 7] ++ (List.range 7).map (fun k => a.getLsbD (6 - k)) := rfl
  rw [h, List.flatMap_cons, List.flatMap_cons, List.flatMap_nil, List.append_nil, haddress, directionBit_eq h,
    wireBits_eq d]

end Sys2Proof
end

section
/-! PROOFS. The statements about what the codec does outside its domains and with other bits than its own
(40_field_codec.md R116 to R122; 30_encoding.md R64). -/

namespace Sys2Proof.Machine

/-! ### Encoding -/

/-- In the encoders' domain every byte of the multiplexer is plain BCD (R101 to R106). -/
theorem encMux_eq_packBcd {t : CivilTime} (ht : t.inEncodeDomain = true) :
    encMux .sec t = packBcd t.second ∧ encMux .min t = packBcd t.minute ∧ encMux .hour t = packBcd t.hour
    ∧ encMux .day t = packBcd t.day ∧ encMux .mon t = packBcd t.month
    ∧ encMux .year t = packBcd ((t.year - 1900) % 100) := by
  obtain ⟨hyear, ⟨hmon1, hmon⟩, ⟨hday1, hday⟩, hhour, hmin, hsec⟩ := t.inEncodeDomain_iff.mp ht
  exact ⟨encSec_eq hsec, encMin_eq hmin, encHour_eq hhour, encDay_eq hday1 hday, encMon_eq hmon1 hmon, encYear_eq hyear⟩

/-- Settles O2: off its range each encoder takes its other branch; the multiplexer's byte of a field reads that field
alone, so it is the byte of a time in the domain. -/
theorem encodersOutsideTheirDomainsAreFree : Obligations.EncodersOutsideTheirDomainsAreFree := by
  unfold Obligations.EncodersOutsideTheirDomainsAreFree
  refine ⟨fun s hs => if_neg ?_, fun m hm => if_neg ?_, fun h hh => if_neg ?_, fun d hd => if_neg ?_,
    fun m hm => if_neg ?_, fun y hy => if_neg (Nat.not_le_of_lt hy), fun t u hu => encMux_eq_packBcd hu⟩
  all_goals omega

/-- A mask that meets no byte up to the largest packed one meets no packed byte (30_encoding.md R64). -/
theorem packBcd_and_high {v w : Nat} (hv : v ≤ w) (hw : w ≤ 99) {mask : Byte}
    (hmask : ∀ b : Byte, b ≤ packBcd w → b &&& mask = 0) : packBcd v &&& mask = 0 :=
  hmask _ (packBcd_mono hv hw)

/-! ### Decoding -/

/-- Bytes that agree below bit k are equal modulo 2 ^ k. -/
theorem mod_eq_of_and_mask_eq {b c mask : Byte} {k : Nat} (hmask : mask.toNat = 2 ^ k - 1)
    (h : b &&& mask = c &&& mask) : b.toNat % 2 ^ k = c.toNat % 2 ^ k := by
  have hnat := congrArg BitVec.toNat h
  simpa only [BitVec.toNat_and, hmask, Nat.and_two_pow_sub_one_eq_mod] using hnat

/-- Settles O7: a decoder reads the byte modulo the power of two above its tens field; an encoded byte stays below the
mask's lowest bit. -/
theorem bitsAboveTheTensFieldAreIgnoredAndWrittenZero :
    Obligations.BitsAboveTheTensFieldAreIgnoredAndWrittenZero := by
  unfold Obligations.BitsAboveTheTensFieldAreIgnoredAndWrittenZero
  refine ⟨fun b c h => ?sec, fun b c h => ?hour, fun b c h => ?mon, fun t ht => ?encode⟩
  case sec =>
    have hmod : b.toNat % 2 ^ 7 = c.toNat % 2 ^ 7 := mod_eq_of_and_mask_eq (k := 7) rfl h
    rw [decMin_eq_decSec, decMin_eq_decSec, decSec_eq, decSec_eq]
    omega
  case hour =>
    have hmod : b.toNat % 2 ^ 6 = c.toNat % 2 ^ 6 := mod_eq_of_and_mask_eq (k := 6) rfl h
    have hcode : b.extractLsb' 4 2 = c.extractLsb' 4 2 := by
      apply BitVec.eq_of_toNat_eq
      rw [toNat_extractLsb'_four, toNat_extractLsb'_four]
      omega
    rw [decHour_eq, decHour_eq, decDay_eq, decDay_eq, hcode]
    omega
  case mon =>
    have hmod : b.toNat % 2 ^ 5 = c.toNat % 2 ^ 5 := mod_eq_of_and_mask_eq (k := 5) rfl h
    rw [decMon_eq, decMon_eq]
    omega
  case encode =>
    obtain ⟨hsec, hmin, hhour, hday, hmon, -⟩ := encMux_eq_packBcd ht
    obtain ⟨-, ⟨-, hmonTop⟩, ⟨-, hdayTop⟩, hhourTop, hminTop, hsecTop⟩ := t.inEncodeDomain_iff.mp ht
    rw [hsec, hmin, hhour, hday, hmon]
    exact ⟨packBcd_and_high hsecTop (by decide) (by decide), packBcd_and_high hminTop (by decide) (by decide),
      packBcd_and_high hhourTop (by decide) (by decide), packBcd_and_high hdayTop (by decide) (by decide),
      packBcd_and_high hmonTop (by decide) (by decide)⟩

/-- DECODE_FRAME answers a time exactly for a frame whose six slots are filled, and then the six decoders' (R116). -/
theorem decodeFrame_eq_ok_iff (F : Frame) (t : CivilTime) :
    decodeFrame F = .ok t ↔ ∃ b0 b1 b2 b4 b5 b6, F = ⟨some b0, some b1, some b2, F.dow, some b4, some b5, some b6⟩
      ∧ t = ⟨decYear b6, decMon b5, decDay b4, decHour b2, decMin b1, decSec b0⟩ := by
  constructor
  · intro h
    unfold decodeFrame at h
    split at h
    · exact ⟨_, _, _, _, _, _, rfl, (Except.ok.inj h).symm⟩
    · cases h
  · rintro ⟨b0, b1, b2, b4, b5, b6, hF, rfl⟩
    rw [hF, decodeFrame_filled]

/-- DECODE_FRAME answers exactly where each of the six slots holds a value. -/
theorem decodeFrame_answers_iff (F : Frame) :
    (∃ t, decodeFrame F = .ok t) ↔ ∀ f : Field, (F.get f.index).isSome = true := by
  constructor
  · rintro ⟨t, h⟩ f
    obtain ⟨b0, b1, b2, b4, b5, b6, hF, -⟩ := (decodeFrame_eq_ok_iff F t).mp h
    rw [hF]
    cases f <;> rfl
  · intro h
    have slot (f : Field) : ∃ b, F.get f.index = some b := Option.isSome_iff_exists.mp (h f)
    obtain ⟨b0, h0⟩ := slot .sec
    obtain ⟨b1, h1⟩ := slot .min
    obtain ⟨b2, h2⟩ := slot .hour
    obtain ⟨b4, h4⟩ := slot .day
    obtain ⟨b5, h5⟩ := slot .mon
    obtain ⟨b6, h6⟩ := slot .year
    have hF : F = ⟨some b0, some b1, some b2, F.dow, some b4, some b5, some b6⟩ := by
      rw [← h0, ← h1, ← h2, ← h4, ← h5, ← h6]
      rfl
    exact ⟨_, (decodeFrame_eq_ok_iff F _).mpr ⟨b0, b1, b2, b4, b5, b6, hF, rfl⟩⟩

/-- Settles O14: what the decoders can give on any byte. -/
theorem decodedTimeFitsItsWidths : Obligations.DecodedTimeFitsItsWidths := by
  unfold Obligations.DecodedTimeFitsItsWidths
  intro F t h
  obtain ⟨b0, b1, b2, b4, b5, b6, -, rfl⟩ := (decodeFrame_eq_ok_iff F t).mp h
  have hyear : b6.toNat < 256 := b6.isLt
  have hhour := hourTens_le (b2.extractLsb' 4 2)
  simp only [CivilTime.fits, Bool.and_eq_true, decide_eq_true_eq, decMin_eq_decSec, decSec_eq, decHour_eq, decDay_eq,
    decMon_eq, decYear_eq]
  omega

/-- Settles O12: the decoded time is the encoded one with a year of the same two digits, which encodes alike. -/
theorem encodedFrameSurvivesTheCivilTime : Obligations.EncodedFrameSurvivesTheCivilTime := by
  unfold Obligations.EncodedFrameSurvivesTheCivilTime
  refine ⟨fun t ht => ⟨_, decodeFrame_encodeFrame t ht, ?_, ?_, ?_⟩, by decide⟩
  · have hyear : encYear (1900 + (t.year - 1900) % 100) = encYear t.year := by
      rw [encYear_eq (by omega), encYear_eq (t.inEncodeDomain_iff.mp ht).1, Nat.add_sub_cancel_left, Nat.mod_mod]
    simp only [encodeFrame, encMux, hyear]
  · exact Nat.le_add_right _ _
  · show 1900 + (t.year - 1900) % 100 ≤ 1999
    omega

/-! ### A slot without a value -/

/-- Where one of the six slots holds no value, the slot the decode stops at is one of the six and holds none. -/
theorem Frame.firstMissing_spec (F : Frame) (f : Field) (h : F.get f.index = none) :
    ∃ g : Field, F.firstMissing = g.index ∧ F.get g.index = none := by
  fun_cases Frame.firstMissing F with
  | case1 hsec => exact ⟨.sec, rfl, Option.isNone_iff_eq_none.mp hsec⟩
  | case2 _ hmin => exact ⟨.min, rfl, Option.isNone_iff_eq_none.mp hmin⟩
  | case3 _ _ hhour => exact ⟨.hour, rfl, Option.isNone_iff_eq_none.mp hhour⟩
  | case4 _ _ _ hday => exact ⟨.day, rfl, Option.isNone_iff_eq_none.mp hday⟩
  | case5 _ _ _ _ hmon => exact ⟨.mon, rfl, Option.isNone_iff_eq_none.mp hmon⟩
  | case6 hsec hmin hhour hday hmon =>
    refine ⟨.year, rfl, ?_⟩
    cases f with
    | sec => exact absurd (Option.isNone_iff_eq_none.mpr h) hsec
    | min => exact absurd (Option.isNone_iff_eq_none.mpr h) hmin
    | hour => exact absurd (Option.isNone_iff_eq_none.mpr h) hhour
    | day => exact absurd (Option.isNone_iff_eq_none.mpr h) hday
    | mon => exact absurd (Option.isNone_iff_eq_none.mpr h) hmon
    | year => exact h

/-- Where one of the six slots holds no value, DECODE_FRAME stops at the first such one (10_state.md R35). -/
theorem decodeFrame_of_missing (F : Frame) (f : Field) (h : F.get f.index = none) :
    decodeFrame F = .error (.slotWithoutValue F.firstMissing) := by
  unfold decodeFrame
  split
  · cases f <;> cases h
  · rfl

/-- Settles O10: the decode stops at the first slot that holds no value, and the decode step with it. -/
theorem decodingAnUnfilledFrameIsAModelFault : Obligations.DecodingAnUnfilledFrameIsAModelFault := by
  unfold Obligations.DecodingAnUnfilledFrameIsAModelFault
  rintro F ⟨f, hf⟩
  obtain ⟨g, hg, hnone⟩ := F.firstMissing_spec f hf
  have hdecode : decodeFrame F = .error (.slotWithoutValue g.index) := hg ▸ decodeFrame_of_missing F f hf
  exact ⟨g, hnone, hdecode, by simp only [decodeStep, hdecode]⟩

end Sys2Proof.Machine
end

section
/-! SUPPORT. What an instruction can do (41_bus_transactions.md R130, R131; 60_exceptions.md R188): it completes as a
write or as a read, or it stays in its first or its second transfer. -/

namespace Sys2Proof.Machine

/-! ### Address bytes and answers -/

@[simp] theorem Field.reg_toNat (f : Field) : f.reg.toNat = f.index.toNat := by cases f <;> rfl

/-- The address byte of a read in the form of the closed form of Safety.lean. -/
theorem readAddress_reg (f : Field) : readAddress f.reg = BitVec.ofNat 8 f.index.toNat := by cases f <;> rfl

/-- Under the simulator the bus answers the register file's byte (20_memory.md R50). -/
theorem State.answer_simulator {s : State} (h : s.oracle = .simulator) (k : Nat) (sim : Byte) :
    s.answer k sim = sim := by
  simp [State.answer, h]

/-! ### The two instructions of a field -/

/-- The write of byte v to the register of a field (R132 to R137). -/
def Field.writeInstr (f : Field) (v : Byte) : Instr :=
  match f with
  | .sec => .wrSec v
  | .min => .wrMin v
  | .hour => .wrHour v
  | .day => .wrDay v
  | .mon => .wrMon v
  | .year => .wrYear v

/-- The read of the register of a field (R138 to R143). -/
def Field.readInstr : Field → Instr
  | .sec => .rdSec
  | .min => .rdMin
  | .hour => .rdHour
  | .day => .rdDay
  | .mon => .rdMon
  | .year => .rdYear

section
variable (f : Field) (v : Byte)

theorem encode_writeInstr : encode (Field.writeInstr f v) = [writeAddress f.reg, v] := by cases f <;> rfl
theorem storesTo_writeInstr : storesTo (Field.writeInstr f v) = some f.reg := by cases f <;> rfl
theorem capturesInto_writeInstr : capturesInto (Field.writeInstr f v) = none := by cases f <;> rfl

theorem encode_readInstr : encode (Field.readInstr f) = [readAddress f.reg, Config.dummy] := by cases f <;> rfl
theorem storesTo_readInstr : storesTo (Field.readInstr f) = none := by cases f <;> rfl
theorem capturesInto_readInstr : capturesInto (Field.readInstr f) = some f := by cases f <;> rfl

end

/-! ### The four ends of an instruction that answers a next state -/

/-- The next states of an instruction with chip-select released, by what the bus answers. -/
inductive ExecNext (i : Instr) (s : State) : State → Prop where
  /-- Both transfers were answered, and the instruction is the write of d to register r. -/
  | wrote (r : RegIndex) (d : Byte) (answers : s.busAnswers 2 = true) (stores : storesTo i = some r)
      (captures : capturesInto i = none) (bytes : encode i = [writeAddress r, d]) :
      ExecNext i s (s.afterWrite r.toNat d)
  /-- Both transfers were answered, and the instruction is the read of field f. -/
  | captured (f : Field) (answers : s.busAnswers 2 = true) (stores : storesTo i = none)
      (captures : capturesInto i = some f) (bytes : encode i = [readAddress f.reg, Config.dummy]) :
      ExecNext i s (s.afterRead f)
  /-- The transfer of the address byte never returned. -/
  | addressUnanswered (answers : s.answersLeft = some 0) : ExecNext i s s.csAssert
  /-- The transfer of the data byte never returned. -/
  | dataUnanswered (a d : Byte) (answers : s.answersLeft = some 1) (bytes : encode i = [a, d]) :
      ExecNext i s (s.csAssert.transferred a (s.answer 0 0x00#8))

/-- Everything an instruction can do when it answers a next state. -/
theorem exec_next_cases {i : Instr} {s t : State} (h : exec i s = .next t) : s.cs = .deasserted ∧ ExecNext i s t := by
  rcases exec_next i s t h with ⟨r, d, hr, hf, he, h⟩ | ⟨f, hr, hf, he, h⟩
  · rcases regWrite_next r d s t h with ⟨hc, ⟨hb, rfl⟩ | ⟨hb, rfl⟩ | ⟨hb, rfl⟩⟩
    · exact ⟨hc, takeWrite_afterTransaction r d s ▸ .wrote r d hb hr hf he⟩
    · exact ⟨hc, .addressUnanswered hb⟩
    · exact ⟨hc, .dataUnanswered _ _ hb he⟩
  · rcases regRead_next f s t h with ⟨hc, ⟨hb, ht⟩ | ⟨hb, rfl⟩ | ⟨hb, rfl⟩⟩
    · have hread : t = s.afterRead f :=
        Host.Outcome.next.inj (h.symm.trans (regRead_answered f s hc hb))
      exact ⟨hc, hread ▸ .captured f hb hr hf he⟩
    · exact ⟨hc, .addressUnanswered hb⟩
    · exact ⟨hc, .dataUnanswered _ _ hb he⟩

/-- With chip-select released an instruction does what the bus lets it do. -/
theorem exec_of_execNext {i : Instr} {s t : State} (hc : s.cs = .deasserted) (h : ExecNext i s t) :
    exec i s = .next t := by
  cases h with
  | wrote r d answers stores _ bytes =>
    obtain ⟨v, he, hexec⟩ := exec_storing i r s stores
    obtain rfl : v = d := by simpa [he] using bytes
    rw [hexec, regWrite_answered r v s hc answers]
  | captured f answers _ captures _ => rw [(exec_capturing i f s captures).2, regRead_answered f s hc answers]
  | addressUnanswered answers =>
    rcases stores_or_captures i with ⟨r, hr, -⟩ | ⟨f, hf, -⟩
    · obtain ⟨v, -, hexec⟩ := exec_storing i r s hr
      simp only [hexec, regWrite, hc, transact_first_unanswered _ _ _ s answers]
    · simp only [(exec_capturing i f s hf).2, regRead, hc, transact_first_unanswered _ _ _ s answers]
  | dataUnanswered a d answers bytes =>
    rcases stores_or_captures i with ⟨r, hr, -⟩ | ⟨f, hf, -⟩
    · obtain ⟨v, he, hexec⟩ := exec_storing i r s hr
      obtain ⟨rfl, rfl⟩ : writeAddress r = a ∧ v = d := by simpa [he] using bytes
      simp only [hexec, regWrite, hc, transact_second_unanswered _ _ _ s answers]
    · obtain ⟨he, hexec⟩ := exec_capturing i f s hf
      obtain ⟨rfl, rfl⟩ : readAddress f.reg = a ∧ Config.dummy = d := by simpa [he] using bytes
      simp only [hexec, regRead, hc, transact_second_unanswered _ _ _ s answers]

/-! ### What follows from each end -/

/-- No instruction touches the sequencer's own state, the host's requests and results, or the oracle. -/
theorem ExecNext.keeps_control {i : Instr} {s t : State} (h : ExecNext i s t) :
    t.idx = s.idx ∧ t.activity = s.activity ∧ t.inited = s.inited ∧ t.returned = s.returned ∧ t.requests = s.requests
    ∧ t.oracle = s.oracle := by
  cases h <;> exact ⟨rfl, rfl, rfl, rfl, rfl, rfl⟩

/-- An instruction ends released exactly where the bus answers both transfers. -/
theorem ExecNext.released_iff {i : Instr} {s t : State} (h : ExecNext i s t) :
    t.cs = .deasserted ↔ s.busAnswers 2 = true := by
  cases h with
  | wrote _ _ answers | captured _ answers => exact iff_of_true rfl answers
  | addressUnanswered answers | dataUnanswered _ _ answers => simp [State.busAnswers, answers]

/-- A completed transaction leaves its four events (41_bus_transactions.md R149). -/
theorem ExecNext.trace_of_released {i : Instr} {s t : State} {a d : Byte} (h : ExecNext i s t)
    (he : encode i = [a, d]) (hreleased : t.cs = .deasserted) :
    ∃ i0 i1, t.trace = s.trace ++ transactionEvents a i0 d i1 := by
  cases h with
  | wrote r v _ _ _ bytes =>
    obtain ⟨rfl, rfl⟩ : a = writeAddress r ∧ d = v := by simpa [he] using bytes
    exact ⟨_, _, by rw [writeAddress_eq]; rfl⟩
  | captured f _ _ _ bytes =>
    obtain ⟨rfl, rfl⟩ : a = readAddress f.reg ∧ d = Config.dummy := by simpa [he] using bytes
    exact ⟨_, _, by rw [readAddress_reg]; rfl⟩
  | addressUnanswered | dataUnanswered => cases hreleased

end Sys2Proof.Machine
end

section
/-! PROOFS. The statements about single transactions (41_bus_transactions.md sections 1 to 3; 20_memory.md R50). -/

namespace Sys2Proof.Machine

/-- Settles O19: each date-time write is REG_WRITE of its index, which completes. -/
theorem dateTimeWritesSendTheirByte : Obligations.DateTimeWritesSendTheirByte := by
  unfold Obligations.DateTimeWritesSendTheirByte
  intro v s hc hb
  exact ⟨regWrite_answered 0#7 v s hc hb, regWrite_answered 1#7 v s hc hb, regWrite_answered 2#7 v s hc hb,
    regWrite_answered 4#7 v s hc hb, regWrite_answered 5#7 v s hc hb, regWrite_answered 6#7 v s hc hb⟩

/-- Settles O20: WR.CTRL is REG_WRITE of 0x60 to the control register, whose index unlocks. -/
theorem controlWriteSendsItsFixedBytes : Obligations.ControlWriteSendsItsFixedBytes := by
  unfold Obligations.ControlWriteSendsItsFixedBytes
  intro s hc hb
  exact ⟨regWrite_answered Config.ctrlIndex Config.ctrlValue s hc hb, s.afterWrite_trace 0x0E 0x60#8,
    Bool.or_true s.unlocked⟩

/-- Settles O21: each read is REG_READ of its field, which completes. -/
theorem dateTimeReadsCaptureTheAnswer : Obligations.DateTimeReadsCaptureTheAnswer := by
  unfold Obligations.DateTimeReadsCaptureTheAnswer
  intro s hc hb
  exact ⟨regRead_answered .sec s hc hb, regRead_answered .min s hc hb, regRead_answered .hour s hc hb,
    regRead_answered .day s hc hb, regRead_answered .mon s hc hb, regRead_answered .year s hc hb⟩

/-- Settles O25: REG_WRITE and REG_READ test chip-select first. -/
theorem transactionNeedsChipSelectReleased : Obligations.TransactionNeedsChipSelectReleased := by
  unfold Obligations.TransactionNeedsChipSelectReleased
  intro i s hc
  rcases stores_or_captures i with ⟨r, hr, -⟩ | ⟨f, hf, -⟩
  · obtain ⟨d, -, hexec⟩ := exec_storing i r s hr
    simp only [hexec, regWrite, hc]
  · obtain ⟨-, hexec⟩ := exec_capturing i f s hf
    simp only [hexec, regRead, hc]

/-- Settles O24: with no answer a transaction stops before its address byte, with one answer before its data byte. -/
theorem unansweredTransactionStaysSelected : Obligations.UnansweredTransactionStaysSelected := by
  unfold Obligations.UnansweredTransactionStaysSelected
  intro i s a d hc he
  refine ⟨fun h0 => exec_of_execNext hc (.addressUnanswered h0), fun h1 => ?_⟩
  rw [exec_of_execNext hc (.dataUnanswered a d h1 he)]
  simp [State.csAssert, State.transferred, h1]

/-- Settles O22: an instruction tests chip-select first, and where it ends released it leaves its four events. -/
theorem chipSelectBracketsTwoTransfers : Obligations.ChipSelectBracketsTwoTransfers := by
  unfold Obligations.ChipSelectBracketsTwoTransfers
  intro i s t h
  obtain ⟨hc, hnext⟩ := exec_next_cases h
  refine ⟨hc, fun hreleased => ?_⟩
  obtain ⟨-, a, d, he, -, -⟩ := encode_issued i
  obtain ⟨i0, i1, htrace⟩ := hnext.trace_of_released he hreleased
  exact ⟨a, d, i0, i1, he, htrace⟩

/-- Settles O23: a completed write changes its own register alone, a completed read its own slot alone, and a transfer
that never returns neither. -/
theorem transactionFrame : Obligations.TransactionFrame := by
  unfold Obligations.TransactionFrame
  intro i s t h
  obtain ⟨-, hnext⟩ := exec_next_cases h
  have hcontrol := hnext.keeps_control
  cases hnext with
  | wrote r d _ stores _ _ =>
    refine ⟨fun b hb => ?_, fun _ _ => rfl, fun hr => ?_, hcontrol⟩
    · exact Memory.read_write_other s.cells r.toNat b d (hb r stores)
    · have hne : r.toNat ≠ 0x0E := fun he => hr (stores.trans (congrArg some (BitVec.eq_of_toNat_eq he)))
      simp [hne]
  | captured f _ _ captures _ =>
    exact ⟨fun _ _ => rfl, fun j hj => Frame.get_set_other s.frame f _ j (hj f captures), fun _ => rfl, hcontrol⟩
  | addressUnanswered | dataUnanswered => exact ⟨fun _ _ => rfl, fun _ _ => rfl, fun _ => rfl, hcontrol⟩

/-- Settles O26: under the simulator the bytes received are the register file's and the 0x00 of the other transfers. -/
theorem simulatorIsAStaticRegisterFile : Obligations.SimulatorIsAStaticRegisterFile := by
  unfold Obligations.SimulatorIsAStaticRegisterFile
  intro i s t a d hsim hwf he h hreleased
  obtain ⟨-, hnext⟩ := exec_next_cases h
  cases hnext with
  | wrote r v _ stores captures bytes =>
    obtain ⟨rfl, rfl⟩ : a = writeAddress r ∧ d = v := by simpa [he] using bytes
    refine ⟨fun q hq => ?_, fun f hf => nomatch captures.symm.trans hf⟩
    obtain rfl : r = q := Option.some.inj (stores.symm.trans hq)
    refine ⟨Memory.read_write_same s.cells r.toNat d hwf, ?_⟩
    rw [State.afterWrite_trace, writeAddress_eq, State.answer_simulator hsim, State.answer_simulator hsim]
  | captured f _ stores captures bytes =>
    obtain ⟨rfl, rfl⟩ : a = readAddress f.reg ∧ d = Config.dummy := by simpa [he] using bytes
    refine ⟨fun r hr => (nomatch stores.symm.trans hr), fun g hg => ?_⟩
    obtain rfl : f = g := Option.some.inj (captures.symm.trans hg)
    refine ⟨?_, rfl, ?_⟩
    · rw [State.afterRead_frame, Frame.get_set_same, State.answer_simulator hsim]
    · rw [State.afterRead_trace, readAddress_reg, State.answer_simulator hsim, State.answer_simulator hsim]
  | addressUnanswered | dataUnanswered => cases hreleased

end Sys2Proof.Machine
end

section
/-! SUPPORT. Everything a step that answers a next state can do (42_sequences.md R160 to R166; log 8, 9), as one
relation that later proofs split. -/

namespace Sys2Proof.Machine

/-! ### Requests (42_sequences.md R166) -/

/-- The state in which a request's operation has begun. -/
def State.begun (r : HostRequest) (s : State) : State :=
  match r with
  | .init => s.beginInit
  | .setDatetime t => s.beginSet t
  | .readDatetime => s.beginRead

section
variable (r : HostRequest) (s : State)

@[simp] theorem State.begun_cs : (s.begun r).cs = s.cs := by cases r <;> rfl
@[simp] theorem State.begun_inited : (s.begun r).inited = s.inited := by cases r <;> rfl
@[simp] theorem State.begun_cells : (s.begun r).cells = s.cells := by cases r <;> rfl
@[simp] theorem State.begun_trace : (s.begun r).trace = s.trace := by cases r <;> rfl
@[simp] theorem State.begun_returned : (s.begun r).returned = s.returned := by cases r <;> rfl
@[simp] theorem State.begun_requests : (s.begun r).requests = s.requests := by cases r <;> rfl
@[simp] theorem State.begun_answersLeft : (s.begun r).answersLeft = s.answersLeft := by cases r <;> rfl
@[simp] theorem State.begun_busy : (s.begun r).busy = true := by cases r <;> rfl

end

/-- A block is busy exactly when it is not idle (log 12). -/
theorem State.busy_eq_false_iff (s : State) : s.busy = false ↔ s.activity = .idle := by
  unfold State.busy
  split <;> simp_all

/-- An idle block begins what it is asked for. -/
theorem request_of_idle (r : HostRequest) {s : State} (h : s.activity = .idle) : request r s = .next (s.begun r) := by
  have hbusy : ¬ s.busy = true := by rw [s.busy_eq_false_iff.mpr h]; decide
  rw [request.eq_def, if_neg hbusy]
  cases r <;> rfl

/-! ### The step -/

/-- The next states of a step. -/
inductive StepNext (s : State) : State → Prop where
  /-- A stuck block stays (log 8). -/
  | selected (cs : s.cs = .asserted) : StepNext s s
  /-- An idle block without a request stays (log 10). -/
  | waiting (cs : s.cs = .deasserted) (idle : s.activity = .idle) (requests : s.requests = []) : StepNext s s
  /-- An idle block takes the host's next request. -/
  | begun (r : HostRequest) (rest : List HostRequest) (cs : s.cs = .deasserted) (idle : s.activity = .idle)
      (requests : s.requests = r :: rest) : StepNext s (State.begun r { s with requests := rest })
  /-- The transaction due was not answered to its end. -/
  | stuck (op : Op) (i : Instr) (u : State) (cs : s.cs = .deasserted) (due : s.activity = .transacting op)
      (fetched : fetch op s = .ok (encode i)) (ran : ExecNext i s u) (selected : u.cs = .asserted) : StepNext s u
  /-- The transaction due completed, and the operation advanced. -/
  | transacted (op : Op) (i : Instr) (u : State) (cs : s.cs = .deasserted) (due : s.activity = .transacting op)
      (fetched : fetch op s = .ok (encode i)) (ran : ExecNext i s u) (released : u.cs = .deasserted) :
      StepNext s (u.advance op)
  /-- INIT ended. -/
  | settled (cs : s.cs = .deasserted) (settling : s.activity = .settling) :
      StepNext s { s.wait Config.settle with inited := true, activity := .idle }
  /-- READ_DATETIME ended. -/
  | decoded (t : CivilTime) (cs : s.cs = .deasserted) (decoding : s.activity = .decoding)
      (decoded : decodeFrame s.frame = .ok t) : StepNext s { s.complete with returned := s.returned ++ [t] }

/-- A transaction due whose bytes decode is exec of the instruction, then what follows it. -/
theorem step_of_fetch {s : State} {op : Op} {bytes : List Byte} {i : Instr} (hc : s.cs = .deasserted)
    (hdue : s.activity = .transacting op) (hf : fetch op s = .ok bytes) (hd : decode bytes = .ok i) :
    step s = afterExec op (exec i s) := by
  rw [step_transacting s op hc hdue, transactionStep, hf]
  simp only [hd]

theorem afterExec_selected (op : Op) {t : State} (h : t.cs = .asserted) : afterExec op (.next t) = .next t := by
  simp only [afterExec, h]

theorem afterExec_released (op : Op) {t : State} (h : t.cs = .deasserted) :
    afterExec op (.next t) = .next (t.advance op) := by
  simp only [afterExec, h]

/-- A step that answers a next state does one of the things of StepNext. -/
theorem stepNext_of_step {s t : State} (h : step s = .next t) : StepNext s t := by
  cases hc : s.cs with
  | asserted =>
    rw [step_selected s hc] at h
    cases h
    exact .selected hc
  | deasserted =>
    cases ha : s.activity with
    | idle =>
      rw [step_idle s hc ha, idleStep] at h
      cases hr : s.requests with
      | nil =>
        simp only [hr] at h
        cases h
        exact .waiting hc ha hr
      | cons r rest =>
        simp only [hr, request_of_idle (s := { s with requests := rest }) r ha] at h
        cases h
        exact .begun r rest hc ha hr
    | transacting op =>
      rw [step_transacting s op hc ha] at h
      obtain ⟨i, u, hexec, ⟨bytes, hf, hd⟩, hend⟩ := transactionStep_next op s t h
      obtain rfl := (decode_eq_ok_iff bytes i).mp hd
      obtain ⟨-, hran⟩ := exec_next_cases hexec
      rcases hend with ⟨hu, rfl⟩ | ⟨hu, rfl⟩
      · exact .stuck op i t hc ha hf hran hu
      · exact .transacted op i u hc ha hf hran hu
    | settling =>
      rw [step_settling s hc ha] at h
      cases h
      exact .settled hc ha
    | decoding =>
      rw [step_decoding s hc ha, decodeStep] at h
      cases hd : decodeFrame s.frame with
      | ok time =>
        simp only [hd] at h
        cases h
        exact .decoded time hc ha hd
      | error f =>
        simp only [hd] at h
        cases h

/-- What StepNext allows is what the step answers. -/
theorem step_of_stepNext {s t : State} (h : StepNext s t) : step s = .next t := by
  cases h with
  | selected cs => exact step_selected s cs
  | waiting cs idle requests => rw [step_idle s cs idle, idleStep, requests]
  | begun r rest cs idle requests =>
    rw [step_idle s cs idle, idleStep, requests]
    exact request_of_idle r idle
  | stuck op i u cs due fetched ran selected =>
    rw [step_of_fetch cs due fetched (decode_encode i), exec_of_execNext cs ran, afterExec_selected op selected]
  | transacted op i u cs due fetched ran released =>
    rw [step_of_fetch cs due fetched (decode_encode i), exec_of_execNext cs ran, afterExec_released op released]
  | settled cs settling => exact step_settling s cs settling
  | decoded time cs decoding decoded =>
    rw [step_decoding s cs decoding, decodeStep, decoded]

/-! ### Fetch -/

/-- An instruction whose address byte has the direction bit of a write captures no byte (30_encoding.md R61). -/
theorem capturesInto_of_msb {i : Instr} {a d : Byte} (h : encode i = [a, d]) (ha : a.getLsbD 7 = true) :
    capturesInto i = none := by
  have hstores : (storesTo i).isSome = true := directionBit_eq h ▸ ha
  rcases stores_or_captures i with ⟨r, -, hf⟩ | ⟨f, -, hr⟩
  · exact hf
  · simp [hr] at hstores

theorem writeAddress_msb : ∀ a : RegIndex, (writeAddress a).getLsbD 7 = true := by decide

end Sys2Proof.Machine
end

section
/-! PROOFS. The statements about single steps of the sequencer, its waiting, and what it stops at (42_sequences.md R160
to R167; 60_exceptions.md R188; 70_reset_and_hazards.md R200, R201). -/

namespace Sys2Proof.Machine

/-! ### The transaction due -/

/-- Settles O28: the step of a transaction due, by what exec answers. -/
theorem stepRunsTheDecodedTransaction : Obligations.StepRunsTheDecodedTransaction := by
  unfold Obligations.StepRunsTheDecodedTransaction
  intro s op bytes i hc hdue hf hd
  rw [step_of_fetch hc hdue hf hd]
  refine ⟨fun t ht hreleased => ?_, fun t ht hselected => ?_, fun f hfault => ?_, fun r hrefused => ?_⟩
  · rw [ht, afterExec_released op hreleased]
  · rw [ht, afterExec_selected op hselected]
  · rw [hfault, afterExec]
  · rw [hrefused, afterExec]

/-- `idx` as the register index of an address byte. -/
theorem setWidth_toNat_idx (i : SeqIndex) : (i.setWidth 7 : RegIndex).toNat = i.toNat := by revert i; decide

theorem fetch_read (s : State) : fetch .read s = .ok [BitVec.ofNat 8 s.idx.toNat, 0x00#8] := by
  rw [fetch, readAddress_eq, setWidth_toNat_idx, Config.dummy]

theorem fetch_set_of_filled {s : State} {v : Byte} (h : s.frame.get s.idx = some v) :
    fetch .set s = .ok [writeAddress (s.idx.setWidth 7), v] := by
  simp only [fetch, h]

/-- SET_DATETIME's transaction at a field's index is the write of that field. -/
theorem fetch_set_of_field {s : State} {f : Field} {v : Byte} (hidx : s.idx = f.index)
    (hv : s.frame.get s.idx = some v) : fetch .set s = .ok (encode (Field.writeInstr f v)) := by
  rw [fetch_set_of_filled hv, hidx, encode_writeInstr, Field.reg]

/-- READ_DATETIME's transaction at a field's index is the read of that field. -/
theorem fetch_read_of_field {s : State} {f : Field} (hidx : s.idx = f.index) :
    fetch .read s = .ok (encode (Field.readInstr f)) := by
  rw [fetch, hidx, encode_readInstr, Field.reg]

theorem fetch_set_of_empty {s : State} (h : s.frame.get s.idx = none) :
    fetch .set s = .error (.slotWithoutValue s.idx) := by
  simp only [fetch, h]

/-- Settles O29: the control word is fixed; the others are formed from `idx`. -/
theorem fetchFormsTheWordOfTheOperation : Obligations.FetchFormsTheWordOfTheOperation := by
  unfold Obligations.FetchFormsTheWordOfTheOperation
  refine fun s => ⟨rfl, fun v hv => ?_, fetch_set_of_empty, fetch_read s⟩
  rw [fetch_set_of_filled hv, writeAddress_eq, setWidth_toNat_idx]

/-- A transaction due whose bytes cannot be formed stops the step with the fault of the slot. -/
theorem step_of_fetch_fault {s : State} {op : Op} {f : Fault} (hc : s.cs = .deasserted)
    (hdue : s.activity = .transacting op) (hf : fetch op s = .error f) : step s = .fault f := by
  rw [step_transacting s op hc hdue, transactionStep, hf]

/-- A transaction due whose address byte is never issued is refused by its name (20_memory.md R49). -/
theorem step_of_fetch_not_issued {s : State} {op : Op} {a d : Byte} (hc : s.cs = .deasserted)
    (hdue : s.activity = .transacting op) (hf : fetch op s = .ok [a, d]) (ha : a ∉ issuedAddresses) :
    step s = .refused (.neverIssued (.addressNeverIssued a)) := by
  rw [step_transacting s op hc hdue, transactionStep, hf]
  simp only [decode_of_not_issued d ha]

/-- Settles O30: the read addresses 0x03 and 0x07 are not issued, and slots 3 and 7 hold nothing to write. -/
theorem indexThreeAndSevenStopByName : Obligations.IndexThreeAndSevenStopByName := by
  unfold Obligations.IndexThreeAndSevenStopByName
  intro s hc hidx
  refine ⟨fun hread => step_of_fetch_not_issued hc hread (fetch_read s) ?_,
    fun hset hdow => step_of_fetch_fault hc hset (fetch_set_of_empty ?_)⟩
  · rcases hidx with h | h <;> rw [h] <;> decide
  · rcases hidx with h | h <;> rw [h]
    · exact hdow
    · rfl

/-- Settles O37: the transaction due ends selected, its trace at most one transfer longer than its `CS+`, and a
selected block steps to itself. -/
theorem stuckBusBlocksForEver : Obligations.StuckBusBlocksForEver := by
  unfold Obligations.StuckBusBlocksForEver
  intro s op bytes i hc hdue hf hd hb
  obtain ⟨u, hexec⟩ := exec_released i s hc
  obtain ⟨-, hran⟩ := exec_next_cases hexec
  have hselected : u.cs = .asserted := by
    cases hu : u.cs with
    | asserted => rfl
    | deasserted => simp [hran.released_iff.mp hu] at hb
  have hstep : step s = .next u := by rw [step_of_fetch hc hdue hf hd, hexec, afterExec_selected op hselected]
  have hbusy : u.busy = true := by
    obtain ⟨-, hactivity, -⟩ := hran.keeps_control
    simp only [State.busy, hactivity, hdue]
  have htrace : ∃ ev, u.trace = s.trace ++ ev ∧ BusEvent.csOff ∉ ev := by
    cases hran with
    | wrote | captured => cases hselected
    | addressUnanswered => exact ⟨[.csOn], rfl, by simp⟩
    | dataUnanswered a => exact ⟨[.csOn, .xfer a _], List.append_assoc _ _ _, by simp⟩
  obtain ⟨ev, hev, hoff⟩ := htrace
  exact ⟨u, ev, hstep, hselected, hbusy, hev, hoff, run_fixed u (step_selected u hselected)⟩

/-! ### Requests and waiting -/

/-- Settles O36: a request tests `busy` first; of all that a step can do only the beginning of an operation, which is
from the idle block, takes from the list. -/
theorem requestsAreTakenOnlyWhenIdle : Obligations.RequestsAreTakenOnlyWhenIdle := by
  unfold Obligations.RequestsAreTakenOnlyWhenIdle
  refine ⟨fun r s hbusy => if_pos hbusy, fun r s hidle => ?_, fun s t h hbusy => ?_⟩
  · exact ⟨s.begun r, request_of_idle r (s.busy_eq_false_iff.mp hidle), s.begun_busy r, s.begun_trace r⟩
  · cases stepNext_of_step h with
    | selected | waiting | settled | decoded => rfl
    | begun _ _ _ idle => simp [s.busy_eq_false_iff.mpr idle] at hbusy
    | stuck op i _ _ _ _ ran =>
      obtain ⟨-, -, -, -, hrequests, -⟩ := ran.keeps_control
      exact hrequests
    | transacted op i u _ _ _ ran =>
      obtain ⟨-, -, -, hadvance, -⟩ := u.advance_frame op
      obtain ⟨-, -, -, -, hrequests, -⟩ := ran.keeps_control
      rw [hadvance, hrequests]

/-- Settles O38: an idle block without a request steps to itself, and reset leaves such a block. -/
theorem idleBlockWaitsForTheHost : Obligations.IdleBlockWaitsForTheHost := by
  unfold Obligations.IdleBlockWaitsForTheHost
  have waits (s : State) (n : Nat) (hc : s.cs = .deasserted) (hidle : s.activity = .idle) (hr : s.requests = []) :
      Sys2Proof.core.run n s = .next s := run_fixed s (step_of_stepNext (.waiting hc hidle hr)) n
  exact ⟨rfl, fun n => waits State.reset n rfl rfl rfl, waits⟩

/-- Settles O43: the reset state field by field. -/
theorem resetLeavesTheBlockIdle : Obligations.ResetLeavesTheBlockIdle := by
  unfold Obligations.ResetLeavesTheBlockIdle
  exact ⟨rfl, rfl, Frame.empty_get, rfl⟩

/-! ### Records -/

/-- An instruction only appends to the trace. -/
theorem ExecNext.appends {i : Instr} {s t : State} (h : ExecNext i s t) : ∃ ev, t.trace = s.trace ++ ev := by
  cases h with
  | wrote | captured | addressUnanswered => exact ⟨_, rfl⟩
  | dataUnanswered => exact ⟨_, List.append_assoc _ _ _⟩

/-- A step only appends to the trace and to the list of returned times. -/
theorem StepNext.appends {s t : State} (h : StepNext s t) :
    (∃ ev, t.trace = s.trace ++ ev) ∧ ∃ ts, t.returned = s.returned ++ ts := by
  have same {α : Type} (xs : List α) : ∃ ys, xs = xs ++ ys := ⟨[], (List.append_nil xs).symm⟩
  cases h with
  | selected | waiting => exact ⟨same _, same _⟩
  | begun r rest =>
    rw [State.begun_trace, State.begun_returned]
    exact ⟨same _, same _⟩
  | stuck op i _ _ _ _ ran =>
    obtain ⟨-, -, -, hreturned, -⟩ := ran.keeps_control
    exact ⟨ran.appends, hreturned ▸ same _⟩
  | transacted op i u _ _ _ ran =>
    obtain ⟨-, htrace, hadvance, -⟩ := u.advance_frame op
    obtain ⟨-, -, -, hreturned, -⟩ := ran.keeps_control
    rw [htrace, hadvance, hreturned]
    exact ⟨ran.appends, same _⟩
  | settled => exact ⟨⟨_, rfl⟩, same _⟩
  | decoded => exact ⟨same _, ⟨_, rfl⟩⟩

/-- Settles O41, by induction on the number of steps. -/
theorem runsOnlyAppendToTheTrace : Obligations.RunsOnlyAppendToTheTrace := by
  unfold Obligations.RunsOnlyAppendToTheTrace
  intro n
  induction n with
  | zero =>
    intro s t h
    cases h
    exact ⟨⟨[], (List.append_nil _).symm⟩, ⟨[], (List.append_nil _).symm⟩⟩
  | succ n ih =>
    intro s t h
    obtain ⟨u, hstep, hrun⟩ := run_succ_next n s t h
    obtain ⟨⟨ev, hev⟩, ⟨ts, hts⟩⟩ := (stepNext_of_step hstep).appends
    obtain ⟨⟨ev', hev'⟩, ⟨ts', hts'⟩⟩ := ih u t hrun
    exact ⟨⟨ev ++ ev', by rw [hev', hev, List.append_assoc]⟩, ⟨ts ++ ts', by rw [hts', hts, List.append_assoc]⟩⟩

end Sys2Proof.Machine
end

section
/-! PROOFS. What a step does not depend on: the answers of the peripheral (42_sequences.md R163) and `inited`
(10_state.md R29; 42_sequences.md R167). -/

namespace Sys2Proof.Machine

/-! ### Frames of one shape -/

/-- A slot written gives frames of one shape one shape again, whatever the bytes. -/
theorem Frame.shape_set {F G : Frame} (h : F.shape = G.shape) (f : Field) (v w : Byte) :
    (F.set f v).shape = (G.set f w).shape := by
  simp only [Frame.shape, List.cons.injEq] at h
  cases f <;> simp [Frame.shape, Frame.set, h]

/-- Frames of one shape hold values at the same six indices. -/
theorem Frame.isSome_get_of_shape {F G : Frame} (h : F.shape = G.shape) (f : Field) :
    (F.get f.index).isSome = (G.get f.index).isSome := by
  simp only [Frame.shape, List.cons.injEq] at h
  obtain ⟨hsec, hmin, hhour, -, hday, hmon, hyear, -⟩ := h
  cases f with
  | sec => exact hsec
  | min => exact hmin
  | hour => exact hhour
  | day => exact hday
  | mon => exact hmon
  | year => exact hyear

/-- Whether DECODE_FRAME answers depends on the shape of the frame alone. -/
theorem decodeFrame_of_shape {F G : Frame} {t : CivilTime} (h : F.shape = G.shape) (hF : decodeFrame F = .ok t) :
    ∃ u, decodeFrame G = .ok u := by
  have hfilled := (decodeFrame_answers_iff F).mp ⟨t, hF⟩
  exact (decodeFrame_answers_iff G).mpr fun f => Frame.isSome_get_of_shape h f ▸ hfilled f

/-! ### Each operation of the state keeps SameControl -/

section
variable {s t : State} (h : SameControl s t)
include h

theorem SameControl.csAssert : SameControl s.csAssert t.csAssert where
  cs          := rfl
  activity    := h.activity
  idx         := h.idx
  requests    := h.requests
  answersLeft := h.answersLeft
  inited      := h.inited
  sent        := by simp [h.sent]
  shape       := h.shape
  toSend      := h.toSend

/-- The byte received is not part of control. -/
theorem SameControl.transferred (o i j : Byte) : SameControl (s.transferred o i) (t.transferred o j) where
  cs          := h.cs
  activity    := h.activity
  idx         := h.idx
  requests    := h.requests
  answersLeft := congrArg (Option.map (· - 1)) h.answersLeft
  inited      := h.inited
  sent        := by simp [h.sent, BusEvent.sentPart]
  shape       := h.shape
  toSend      := h.toSend

theorem SameControl.afterWrite (a : Nat) (v : Byte) : SameControl (s.afterWrite a v) (t.afterWrite a v) where
  cs          := rfl
  activity    := h.activity
  idx         := h.idx
  requests    := h.requests
  answersLeft := congrArg (Option.map (· - 2)) h.answersLeft
  inited      := h.inited
  sent        := by simp [h.sent, BusEvent.sentPart]
  shape       := h.shape
  toSend      := h.toSend

/-- The captured byte is not part of control where no frame is being sent. -/
theorem SameControl.afterRead (f : Field) (hset : s.activity ≠ .transacting .set) :
    SameControl (s.afterRead f) (t.afterRead f) where
  cs          := rfl
  activity    := h.activity
  idx         := h.idx
  requests    := h.requests
  answersLeft := congrArg (Option.map (· - 2)) h.answersLeft
  inited      := h.inited
  sent        := by simp [h.sent, BusEvent.sentPart]
  shape       := Frame.shape_set h.shape f _ _
  toSend      := fun hs => absurd hs hset

/-- The end of an operation drops the frame, so that nothing of it can be sent. -/
theorem SameControl.complete : SameControl s.complete t.complete :=
  { h with activity := rfl, shape := rfl, toSend := fun _ => rfl }

theorem SameControl.advance (op : Op) : SameControl (s.advance op) (t.advance op) := by
  have hidx := h.idx
  rcases s.advance_cases op with ⟨rfl, hs⟩ | ⟨hop, j, hj, hs⟩ | ⟨rfl, hj, hs⟩ | ⟨rfl, hj, hs⟩
  · rw [hs]
    exact { h with activity := rfl, toSend := nofun }
  · rw [hs, State.advance_of_next hop (hidx ▸ hj)]
    exact { h with idx := rfl }
  · rw [hs, State.advance_set_of_end (hidx ▸ hj)]
    exact h.complete
  · rw [hs, State.advance_read_of_end (hidx ▸ hj)]
    exact { h with activity := rfl, toSend := nofun }

/-- A request begins alike in both: SET_DATETIME with the same frame, READ_DATETIME with the empty one. -/
theorem SameControl.begun (r : HostRequest) (rest : List HostRequest) :
    SameControl (State.begun r { s with requests := rest }) (State.begun r { t with requests := rest }) := by
  cases r with
  | init => exact { h with requests := rfl, activity := rfl, toSend := nofun }
  | setDatetime time =>
    exact { h with requests := rfl, activity := rfl, idx := rfl, shape := rfl, toSend := fun _ => rfl }
  | readDatetime => exact { h with requests := rfl, activity := rfl, idx := rfl, shape := rfl, toSend := fun _ => rfl }

/-- The bytes due are the same: a read's are formed from `idx`, a write's from `idx` and the frame about to be sent. -/
theorem SameControl.fetch {op : Op} (hdue : s.activity = .transacting op) :
    Machine.fetch op s = Machine.fetch op t := by
  cases op with
  | init => rfl
  | set => simp only [Machine.fetch, h.idx, h.toSend hdue]
  | read => simp only [Machine.fetch, h.idx]

/-- Answered as often, an instruction comes to the same end in both. -/
theorem SameControl.execNext {i : Instr} {s' : State} (hran : ExecNext i s s')
    (hset : s.activity = .transacting .set → capturesInto i = none) :
    ∃ t', ExecNext i t t' ∧ SameControl s' t' := by
  have hanswers (n : Nat) : s.busAnswers n = t.busAnswers n := by simp only [State.busAnswers, h.answersLeft]
  cases hran with
  | wrote r d answers stores captures bytes =>
    exact ⟨_, .wrote r d (hanswers 2 ▸ answers) stores captures bytes, h.afterWrite r.toNat d⟩
  | captured f answers stores captures bytes =>
    have hread : s.activity ≠ .transacting .set := fun hs => nomatch captures.symm.trans (hset hs)
    exact ⟨_, .captured f (hanswers 2 ▸ answers) stores captures bytes, h.afterRead f hread⟩
  | addressUnanswered answers => exact ⟨_, .addressUnanswered (h.answersLeft ▸ answers), h.csAssert⟩
  | dataUnanswered a d answers bytes =>
    exact ⟨_, .dataUnanswered a d (h.answersLeft ▸ answers) bytes, h.csAssert.transferred a _ _⟩

end

/-! ### The step -/

/-- SET_DATETIME only writes, so it captures no byte. -/
theorem capturesInto_of_fetch_set {s : State} {i : Instr} (h : fetch .set s = .ok (encode i)) :
    capturesInto i = none := by
  cases hv : s.frame.get s.idx with
  | none =>
    rw [fetch_set_of_empty hv] at h
    cases h
  | some v =>
    rw [fetch_set_of_filled hv] at h
    exact capturesInto_of_msb (Except.ok.inj h).symm (writeAddress_msb _)

/-- The transaction due is the same in both and comes to the same end. -/
theorem SameControl.transaction {s t u : State} {op : Op} {i : Instr} (h : SameControl s t)
    (hdue : s.activity = .transacting op) (hf : Machine.fetch op s = .ok (encode i)) (hran : ExecNext i s u) :
    ∃ u', Machine.fetch op t = .ok (encode i) ∧ ExecNext i t u' ∧ SameControl u u' := by
  have hset (hs : s.activity = .transacting .set) : capturesInto i = none := by
    obtain rfl : op = .set := by simpa [hdue] using hs
    exact capturesInto_of_fetch_set hf
  obtain ⟨u', hran', hu⟩ := h.execNext hran hset
  exact ⟨u', h.fetch hdue ▸ hf, hran', hu⟩

/-- What a step can do in one of two such states, it can do in the other. -/
theorem SameControl.stepNext {s t s' : State} (h : SameControl s t) (hstep : StepNext s s') :
    ∃ t', StepNext t t' ∧ SameControl s' t' := by
  have hc := h.cs
  have ha := h.activity
  cases hstep with
  | selected cs => exact ⟨t, .selected (hc ▸ cs), h⟩
  | waiting cs idle requests => exact ⟨t, .waiting (hc ▸ cs) (ha ▸ idle) (h.requests ▸ requests), h⟩
  | begun r rest cs idle requests =>
    exact ⟨_, .begun r rest (hc ▸ cs) (ha ▸ idle) (h.requests ▸ requests), h.begun r rest⟩
  | stuck op i u cs due fetched ran selected =>
    obtain ⟨u', hf, hran, hu⟩ := h.transaction due fetched ran
    exact ⟨u', .stuck op i u' (hc ▸ cs) (ha ▸ due) hf hran (hu.cs ▸ selected), hu⟩
  | transacted op i u cs due fetched ran released =>
    obtain ⟨u', hf, hran, hu⟩ := h.transaction due fetched ran
    exact ⟨_, .transacted op i u' (hc ▸ cs) (ha ▸ due) hf hran (hu.cs ▸ released), hu.advance op⟩
  | settled cs settling =>
    refine ⟨_, .settled (hc ▸ cs) (ha ▸ settling), ?_⟩
    exact { h with activity := rfl, inited := rfl, sent := by simp [h.sent], toSend := nofun }
  | decoded time cs decoding decoded =>
    obtain ⟨time', hdecode⟩ := decodeFrame_of_shape h.shape decoded
    exact ⟨_, .decoded time' (hc ▸ cs) (ha ▸ decoding) hdecode, { h.complete with }⟩

/-- Settles O40: case by case of what a step can do, both states do the same. -/
theorem controlNeverDependsOnTheAnswers : Obligations.ControlNeverDependsOnTheAnswers := by
  unfold Obligations.ControlNeverDependsOnTheAnswers
  intro s t s' h hstep
  obtain ⟨t', hstep', h'⟩ := h.stepNext (stepNext_of_step hstep)
  exact ⟨t', step_of_stepNext hstep', h'⟩

/-! ### `inited` -/

/-- The state with another value of `inited`. -/
def State.withInited (b : Bool) (s : State) : State := { s with inited := b }

/-- An instruction comes to the same end whatever `inited` is. -/
theorem ExecNext.withInited {i : Instr} {s t : State} (h : ExecNext i s t) (b : Bool) :
    ExecNext i (s.withInited b) (t.withInited b) := by
  cases h with
  | wrote r d answers stores captures bytes => exact .wrote r d answers stores captures bytes
  | captured f answers stores captures bytes => exact .captured f answers stores captures bytes
  | addressUnanswered answers => exact .addressUnanswered answers
  | dataUnanswered a d answers bytes => exact .dataUnanswered a d answers bytes

theorem exec_withInited (i : Instr) {s : State} (b : Bool) (hc : s.cs = .deasserted) :
    exec i (s.withInited b) = mapNext (State.withInited b) (exec i s) := by
  obtain ⟨t, ht⟩ := exec_released i s hc
  obtain ⟨-, hran⟩ := exec_next_cases ht
  rw [ht, exec_of_execNext (s := s.withInited b) hc (hran.withInited b)]
  rfl

theorem fetch_withInited (op : Op) (s : State) (b : Bool) : fetch op (s.withInited b) = fetch op s := by
  cases op <;> rfl

theorem advance_withInited (op : Op) (s : State) (b : Bool) :
    (s.withInited b).advance op = (s.advance op).withInited b := by
  rcases s.advance_cases op with ⟨rfl, hs⟩ | ⟨hop, j, hj, hs⟩ | ⟨rfl, hj, hs⟩ | ⟨rfl, hj, hs⟩ <;> rw [hs]
  · rfl
  · exact State.advance_of_next hop hj
  · exact State.advance_set_of_end hj
  · exact State.advance_read_of_end hj

theorem afterExec_withInited (op : Op) (o : Result) (b : Bool) :
    afterExec op (mapNext (State.withInited b) o) = mapNext (State.withInited b) (afterExec op o) := by
  cases o with
  | next t =>
    cases hc : t.cs with
    | asserted =>
      rw [afterExec_selected op hc]
      exact afterExec_selected op hc
    | deasserted =>
      have hb : afterExec op (.next (t.withInited b)) = .next ((t.withInited b).advance op) := afterExec_released op hc
      rw [afterExec_released op hc]
      exact hb.trans (congrArg _ (advance_withInited op t b))
  | fault f => rfl
  | refused r => rfl

theorem transactionStep_withInited (op : Op) {s : State} (b : Bool) (hc : s.cs = .deasserted) :
    transactionStep op (s.withInited b) = mapNext (State.withInited b) (transactionStep op s) := by
  simp only [transactionStep, fetch_withInited, exec_withInited _ b hc, afterExec_withInited]
  cases fetch op s with
  | error f => rfl
  | ok bytes =>
    dsimp only
    cases decode bytes <;> rfl

theorem idleStep_withInited {s : State} (b : Bool) (hidle : s.activity = .idle) :
    idleStep (s.withInited b) = mapNext (State.withInited b) (idleStep s) := by
  cases hr : s.requests with
  | nil => simp only [idleStep, State.withInited, hr, mapNext]
  | cons r rest =>
    have hbegin (c : Bool) :
        idleStep (s.withInited c) = .next (State.begun r { s.withInited c with requests := rest }) := by
      rw [idleStep, show (s.withInited c).requests = r :: rest from hr]
      exact request_of_idle r hidle
    have hsame : idleStep s = .next (State.begun r { s with requests := rest }) := hbegin s.inited
    rw [hbegin b, hsame, mapNext]
    cases r <;> rfl

theorem decodeStep_withInited (s : State) (b : Bool) :
    decodeStep (s.withInited b) = mapNext (State.withInited b) (decodeStep s) := by
  rw [decodeStep, decodeStep, show (s.withInited b).frame = s.frame from rfl]
  cases decodeFrame s.frame <;> rfl

/-- Off the settle delay a step carries `inited` along. -/
theorem step_withInited {s : State} (b : Bool) (hsettling : s.activity ≠ .settling) :
    step (s.withInited b) = mapNext (State.withInited b) (step s) := by
  cases hc : s.cs with
  | asserted => rw [step_selected s hc, step_selected (s.withInited b) hc, mapNext]
  | deasserted =>
    cases ha : s.activity with
    | idle => rw [step_idle s hc ha, step_idle (s.withInited b) hc ha, idleStep_withInited b ha]
    | transacting op =>
      rw [step_transacting s op hc ha, step_transacting (s.withInited b) op hc ha, transactionStep_withInited op b hc]
    | settling => exact absurd ha hsettling
    | decoding => rw [step_decoding s hc ha, step_decoding (s.withInited b) hc ha, decodeStep_withInited]

/-- Only the end of INIT writes `inited`, and it writes true. -/
theorem StepNext.inited_eq_or {s t : State} (h : StepNext s t) :
    t.inited = s.inited ∨ s.activity = .settling ∧ t.inited = true := by
  cases h with
  | selected | waiting | decoded => exact .inl rfl
  | begun r => exact .inl (State.begun_inited r _)
  | stuck op i _ _ _ _ ran =>
    obtain ⟨-, -, hinited, -⟩ := ran.keeps_control
    exact .inl hinited
  | transacted op i u _ _ _ ran =>
    obtain ⟨-, -, -, -, hadvance, -⟩ := u.advance_frame op
    obtain ⟨-, -, hinited, -⟩ := ran.keeps_control
    exact .inl (hadvance.trans hinited)
  | settled _ settling => exact .inr ⟨settling, rfl⟩

/-- Settles O39: off the settle delay a step carries `inited` along, and the settle delay overwrites it. -/
theorem initedIsNeverRead : Obligations.InitedIsNeverRead := by
  unfold Obligations.InitedIsNeverRead
  refine ⟨fun s b => step_withInited b, fun s b hc ha => ?_, fun s t h hne => ?_⟩
  · rw [step_settling s hc ha, step_settling { s with inited := b } hc ha]
    rfl
  · exact (stepNext_of_step h).inited_eq_or.resolve_left hne

end Sys2Proof.Machine
end

section
/-! SUPPORT. The parts of the machine invariant, activity by activity, and what the transaction due sends in a state of
the invariant. -/

namespace Sys2Proof.Machine

/-! ### The frame and `idx` -/

/-- Each of FIELD_IDX is the index of a field. -/
theorem exists_field_of_mem {i : SeqIndex} (h : i ∈ Config.fieldIdx) : ∃ f : Field, i = f.index := by
  simp only [Config.fieldIdx, List.mem_cons, List.not_mem_nil, or_false] at h
  rcases h with rfl | rfl | rfl | rfl | rfl | rfl
  exacts [⟨.sec, rfl⟩, ⟨.min, rfl⟩, ⟨.hour, rfl⟩, ⟨.day, rfl⟩, ⟨.mon, rfl⟩, ⟨.year, rfl⟩]

section
variable {s : State}

/-- Outside the two date-time operations the frame is empty. -/
theorem frameFits_idle (h : s.activity = .idle) : s.frameFits = true ↔ s.frame = Frame.empty := by
  simp [State.frameFits, h]

theorem frameFits_init (h : s.activity = .transacting .init) : s.frameFits = true ↔ s.frame = Frame.empty := by
  simp [State.frameFits, h]

theorem frameFits_settling (h : s.activity = .settling) : s.frameFits = true ↔ s.frame = Frame.empty := by
  simp [State.frameFits, h]

theorem frameFits_set (h : s.activity = .transacting .set) :
    s.frameFits = true ↔ s.idx ∈ Config.fieldIdx ∧ ∀ i ∈ Config.fieldIdx, s.frame.filled i = true := by
  simp [State.frameFits, h]

theorem frameFits_read (h : s.activity = .transacting .read) :
    s.frameFits = true ↔ s.idx ∈ Config.fieldIdx ∧ ∀ i ∈ Config.fieldIdx, s.frame.filled i = decide (i < s.idx) := by
  simp [State.frameFits, h]

theorem frameFits_decoding (h : s.activity = .decoding) :
    s.frameFits = true ↔ ∀ i ∈ Config.fieldIdx, s.frame.filled i = true := by
  simp [State.frameFits, h]

end

/-- A write to a slot fills it and leaves the others as they are. -/
theorem Frame.filled_set (F : Frame) (f : Field) (v : Byte) (i : SeqIndex) :
    (F.set f v).filled i = (decide (i = f.index) || F.filled i) := by
  by_cases h : i = f.index
  · simp [Frame.filled, h]
  · simp [Frame.filled, h, Frame.get_set_other F f v i h]

/-- Below the next index are the indices below this one and this one. -/
theorem lt_next_iff (f : Field) : ∀ j, nextIdx f.index = some j → ∀ i ∈ Config.fieldIdx,
    decide (i < j) = (decide (i = f.index) || decide (i < f.index)) := by
  cases f <;> decide

/-- Up to the last index are all of them. -/
theorem le_last (f : Field) : nextIdx f.index = none → ∀ i ∈ Config.fieldIdx,
    (decide (i = f.index) || decide (i < f.index)) = true := by
  cases f <;> decide

/-- A frame whose six slots hold values decodes. -/
theorem decodeFrame_of_filled {F : Frame} (h : ∀ i ∈ Config.fieldIdx, F.filled i = true) : ∃ t, decodeFrame F = .ok t :=
  (decodeFrame_answers_iff F).mpr fun f => h f.index (Field.index_mem f)

/-! ### The transaction due -/

theorem dueAddress_init {s : State} (h : s.activity = .transacting .init) : s.dueAddress = 0x8E#8 := by
  simp only [State.dueAddress, h]

theorem dueAddress_set {s : State} (h : s.activity = .transacting .set) :
    s.dueAddress = s.idx.setWidth 8 + 0x80#8 := by
  simp only [State.dueAddress, h]

theorem dueAddress_read {s : State} (h : s.activity = .transacting .read) : s.dueAddress = s.idx.setWidth 8 := by
  simp only [State.dueAddress, h]

/-- The address bytes fetched are those of Safety.lean. -/
theorem writeAddress_idx : ∀ i : SeqIndex, writeAddress (i.setWidth 7) = i.setWidth 8 + 0x80#8 := by decide

theorem readAddress_idx : ∀ i : SeqIndex, readAddress (i.setWidth 7) = i.setWidth 8 := by decide

/-- The transaction due sends the address byte due. -/
theorem address_of_fetch {s : State} {op : Op} {bytes : List Byte} (hdue : s.activity = .transacting op)
    (hf : fetch op s = .ok bytes) : ∃ d, bytes = [s.dueAddress, d] := by
  cases op with
  | init =>
    cases hf
    exact ⟨_, by rw [dueAddress_init hdue]; rfl⟩
  | set =>
    cases hv : s.frame.get s.idx with
    | none =>
      rw [fetch_set_of_empty hv] at hf
      cases hf
    | some v =>
      rw [fetch_set_of_filled hv] at hf
      cases hf
      exact ⟨v, by rw [dueAddress_set hdue, writeAddress_idx]⟩
  | read =>
    cases hf
    exact ⟨_, by rw [dueAddress_read hdue, readAddress_idx]⟩

/-- The transaction due sends the address byte due, and a data byte allowed after it. -/
theorem encode_of_fetch {s : State} {op : Op} {i : Instr} (hdue : s.activity = .transacting op)
    (hf : fetch op s = .ok (encode i)) : ∃ d, encode i = [s.dueAddress, d] ∧ dataAllowed s.dueAddress d = true := by
  obtain ⟨d, he⟩ := address_of_fetch hdue hf
  obtain ⟨-, a, d', he', -, hd⟩ := encode_issued i
  obtain ⟨rfl, rfl⟩ : a = s.dueAddress ∧ d' = d := by simpa [he'] using he
  exact ⟨d', he', hd⟩

/-- INIT captures no byte. -/
theorem capturesInto_of_fetch_init {s : State} {i : Instr} (h : fetch .init s = .ok (encode i)) :
    capturesInto i = none :=
  capturesInto_of_msb (Except.ok.inj h).symm rfl

/-- READ_DATETIME captures into the slot of `idx`. -/
theorem capturesInto_of_fetch_read {s : State} {i : Instr} {f : Field} (hidx : s.idx = f.index)
    (h : fetch .read s = .ok (encode i)) : capturesInto i = some f := by
  have he : encode (Field.readInstr f) = encode i := Except.ok.inj ((fetch_read_of_field hidx).symm.trans h)
  rw [← encode_injective he, capturesInto_readInstr]

/-! ### The trace -/

section
variable {s : State}

theorem traceLegal_released (h : s.cs = .deasserted) :
    s.traceLegal = true ↔ phaseOf s.trace = some (.released s.expected) := by
  simp [State.traceLegal, h]

theorem traceLegal_selected (h : s.cs = .asserted) :
    s.traceLegal = true
      ↔ phaseOf s.trace = some (.selected s.expected) ∨ phaseOf s.trace = some (.addressed s.dueAddress) := by
  simp [State.traceLegal, h]

end

theorem expected_init {s : State} (h : s.activity = .transacting .init) : s.expected = .anyOperation := by
  simp only [State.expected, h]

theorem expected_set {s : State} (h : s.activity = .transacting .set) :
    s.expected = if s.idx = 0#3 then .anyOperation else .writeOf s.idx := by
  simp only [State.expected, h]

theorem expected_read {s : State} (h : s.activity = .transacting .read) :
    s.expected = if s.idx = 0#3 then .anyOperation else .readOf s.idx := by
  simp only [State.expected, h]

/-- The address byte due is one an observer expects. -/
theorem expected_allows_dueAddress {s : State} {op : Op} (hdue : s.activity = .transacting op) :
    s.expected.allows s.dueAddress = true := by
  cases op with
  | init =>
    rw [expected_init hdue, dueAddress_init hdue]
    rfl
  | set =>
    rw [expected_set hdue, dueAddress_set hdue]
    split
    case isTrue h0 => rw [h0]; rfl
    case isFalse => exact decide_eq_true rfl
  | read =>
    rw [expected_read hdue, dueAddress_read hdue]
    split
    case isTrue h0 => rw [h0]; rfl
    case isFalse => exact decide_eq_true rfl

/-- No delay is expected where a transaction is due: a delay allows no address byte. -/
theorem expected_ne_settleDelay {s : State} {op : Op} (hdue : s.activity = .transacting op) :
    s.expected ≠ .settleDelay := by
  intro h
  have hallows := expected_allows_dueAddress hdue
  rw [h] at hallows
  cases hallows

/-- The order of the writes is the order of `next`. -/
theorem afterAddress_write (f : Field) :
    (∀ j, nextIdx f.index = some j → j ≠ 0#3 ∧ Expect.afterAddress (f.index.setWidth 8 + 0x80#8) = .writeOf j)
    ∧ (nextIdx f.index = none → Expect.afterAddress (f.index.setWidth 8 + 0x80#8) = .anyOperation) := by
  cases f <;> decide

/-- The order of the reads is the order of `next`. -/
theorem afterAddress_read (f : Field) :
    (∀ j, nextIdx f.index = some j → j ≠ 0#3 ∧ Expect.afterAddress (f.index.setWidth 8) = .readOf j)
    ∧ (nextIdx f.index = none → Expect.afterAddress (f.index.setWidth 8) = .anyOperation) := by
  cases f <;> decide

end Sys2Proof.Machine
end

section
/-! PROOFS. The machine invariant (10_state.md sections 2, 4, 5): reset meets it and every step keeps it. -/

namespace Sys2Proof.Machine

/-- Settles O44: field by field of the invariant, by evaluation. -/
theorem resetMeetsTheMachineInvariant : Obligations.ResetMeetsTheMachineInvariant := by
  unfold Obligations.ResetMeetsTheMachineInvariant
  exact ⟨Memory.reset_wf, rfl, rfl, rfl, rfl⟩

/-! ### What an instruction keeps -/

/-- The register image stays canonical. -/
theorem ExecNext.cells_wf {i : Instr} {s t : State} (h : ExecNext i s t) (hs : s.cells.wf = true) :
    t.cells.wf = true := by
  cases h with
  | wrote r d => exact Memory.write_wf s.cells r.toNat d r.isLt hs
  | captured | addressUnanswered | dataUnanswered => exact hs

/-- Slot 3 is left alone. -/
theorem ExecNext.frame_dow {i : Instr} {s t : State} (h : ExecNext i s t) : t.frame.dow = s.frame.dow := by
  cases h with
  | captured f => exact Frame.set_dow s.frame f _
  | wrote | addressUnanswered | dataUnanswered => rfl

/-- An instruction that captures no byte leaves the frame. -/
theorem ExecNext.frame_of_no_capture {i : Instr} {s t : State} (h : ExecNext i s t) (hi : capturesInto i = none) :
    t.frame = s.frame := by
  cases h with
  | captured f _ _ captures => cases captures.symm.trans hi
  | wrote | addressUnanswered | dataUnanswered => rfl

/-- A completed capture fills its slot. -/
theorem ExecNext.frame_of_capture {i : Instr} {s t : State} {f : Field} (h : ExecNext i s t)
    (hi : capturesInto i = some f) (hreleased : t.cs = .deasserted) : ∃ b, t.frame = s.frame.set f b := by
  cases h with
  | captured g _ _ captures =>
    obtain rfl : g = f := Option.some.inj (captures.symm.trans hi)
    exact ⟨_, rfl⟩
  | wrote _ _ _ _ captures => cases captures.symm.trans hi
  | addressUnanswered | dataUnanswered => cases hreleased

/-! ### What the advance leads to -/

theorem State.advance_dow (op : Op) {s : State} (h : s.frame.dow = none) : (s.advance op).frame.dow = none := by
  rcases s.advance_cases op with ⟨-, hs⟩ | ⟨-, j, -, hs⟩ | ⟨-, -, hs⟩ | ⟨-, -, hs⟩ <;> rw [hs]
  · exact h
  · exact h
  · rfl
  · exact h

/-- The index of the transaction due is one of the six. -/
theorem idx_of_frameFits {s : State} {op : Op} (hop : op ≠ .init) (hdue : s.activity = .transacting op)
    (hfits : s.frameFits = true) : ∃ f : Field, s.idx = f.index := by
  cases op with
  | init => exact absurd rfl hop
  | set => exact exists_field_of_mem ((frameFits_set hdue).mp hfits).1
  | read => exact exists_field_of_mem ((frameFits_read hdue).mp hfits).1

/-- After the advance an observer expects what follows the transaction that was due. -/
theorem expected_advance {s : State} {op : Op} (hdue : s.activity = .transacting op)
    (hidx : op ≠ .init → ∃ f : Field, s.idx = f.index) :
    (s.advance op).expected = Expect.afterAddress s.dueAddress := by
  rcases s.advance_cases op with ⟨rfl, hs⟩ | ⟨hop, j, hj, hs⟩ | ⟨rfl, hj, hs⟩ | ⟨rfl, hj, hs⟩ <;> rw [hs]
  · rw [dueAddress_init hdue]
    rfl
  · obtain ⟨f, hf⟩ := hidx hop
    rw [hf] at hj
    cases op with
    | init => exact absurd rfl hop
    | set =>
      obtain ⟨hne, hafter⟩ := (afterAddress_write f).1 j hj
      rw [expected_set (s := { s with idx := j }) hdue, if_neg hne, dueAddress_set hdue, hf, hafter]
    | read =>
      obtain ⟨hne, hafter⟩ := (afterAddress_read f).1 j hj
      rw [expected_read (s := { s with idx := j }) hdue, if_neg hne, dueAddress_read hdue, hf, hafter]
  · obtain ⟨f, hf⟩ := hidx (by decide)
    rw [dueAddress_set hdue, hf, (afterAddress_write f).2 (hf ▸ hj)]
    rfl
  · obtain ⟨f, hf⟩ := hidx (by decide)
    rw [dueAddress_read hdue, hf, (afterAddress_read f).2 (hf ▸ hj)]
    rfl

/-- After a transaction of SET_DATETIME the frame fits the next, or is dropped. -/
theorem frameFits_advance_set {s : State} (hdue : s.activity = .transacting .set) (hfits : s.frameFits = true) :
    (s.advance .set).frameFits = true := by
  obtain ⟨-, hfilled⟩ := (frameFits_set hdue).mp hfits
  cases hj : nextIdx s.idx with
  | none =>
    rw [State.advance_set_of_end hj]
    exact (frameFits_idle (s := s.complete) rfl).mpr rfl
  | some j =>
    rw [State.advance_of_next (by decide) hj]
    obtain ⟨-, hmem⟩ := nextIdx_mem s.idx j hj
    exact (frameFits_set (s := { s with idx := j }) hdue).mpr ⟨hmem, hfilled⟩

/-- After a read the slot captured joins those before it, or all six are filled. -/
theorem frameFits_advance_read {s u : State} {f : Field} {b : Byte} (hdue : s.activity = .transacting .read)
    (hfits : s.frameFits = true) (hidx : s.idx = f.index) (hactivity : u.activity = s.activity) (hu : u.idx = s.idx)
    (hframe : u.frame = s.frame.set f b) : (u.advance .read).frameFits = true := by
  obtain ⟨-, hbelow⟩ := (frameFits_read hdue).mp hfits
  have hfilled : ∀ i ∈ Config.fieldIdx, u.frame.filled i = (decide (i = f.index) || decide (i < f.index)) := by
    intro i hi
    rw [hframe, Frame.filled_set, hbelow i hi, hidx]
  cases hj : nextIdx u.idx with
  | none =>
    rw [State.advance_read_of_end hj]
    refine (frameFits_decoding (s := { u with activity := .decoding }) rfl).mpr fun i hi => ?_
    rw [hu, hidx] at hj
    exact (hfilled i hi).trans (le_last f hj i hi)
  | some j =>
    rw [State.advance_of_next (by decide) hj]
    obtain ⟨-, hmem⟩ := nextIdx_mem u.idx j hj
    rw [hu, hidx] at hj
    exact (frameFits_read (s := { u with idx := j }) (hactivity.trans hdue)).mpr
      ⟨hmem, fun i hi => (hfilled i hi).trans (lt_next_iff f j hj i hi).symm⟩

/-! ### A transaction keeps the invariant -/

section
variable {s u : State} {op : Op} {i : Instr} (hs : s.Inv) (hc : s.cs = .deasserted)
  (hdue : s.activity = .transacting op) (hf : fetch op s = .ok (encode i)) (hran : ExecNext i s u)
include hs hc hdue hf hran

/-- A transaction that was not answered to its end stands selected or addressed. -/
theorem State.Inv.stuck (hselected : u.cs = .asserted) : u.Inv := by
  have hphase := (traceLegal_released hc).mp hs.trace
  have hne := expected_ne_settleDelay hdue
  have hselect : u.selectFits = true := by
    obtain ⟨-, hactivity, -⟩ := hran.keeps_control
    simp only [State.selectFits, hselected, hactivity, hdue]
  cases hran with
  | wrote | captured => cases hselected
  | addressUnanswered =>
    refine ⟨hs.cells, hs.dow, hs.frame, hselect, (traceLegal_selected rfl).mpr (.inl ?_)⟩
    rw [State.csAssert_trace, phaseOf_append, hphase]
    simp only [observeAll_cons, observeAll_nil, Option.bind_some, BusPhase.observe, hne, if_false]
    rfl
  | dataUnanswered a d _ bytes =>
    obtain ⟨d', he, -⟩ := encode_of_fetch hdue hf
    obtain ⟨rfl, rfl⟩ : a = s.dueAddress ∧ d = d' := by simpa [bytes] using he
    have hallows := expected_allows_dueAddress hdue
    refine ⟨hs.cells, hs.dow, hs.frame, hselect, (traceLegal_selected rfl).mpr (.inr ?_)⟩
    rw [State.transferred_trace, State.csAssert_trace, phaseOf_append, phaseOf_append, hphase]
    simp only [observeAll_cons, observeAll_nil, Option.bind_some, BusPhase.observe, hne, if_false, hallows, if_true]
    rfl

omit hc in
/-- The frame after a completed transaction fits what the operation does next. -/
theorem State.Inv.frameFits_transacted (hreleased : u.cs = .deasserted) : (u.advance op).frameFits = true := by
  obtain ⟨hu, hactivity, -⟩ := hran.keeps_control
  cases op with
  | init =>
    have hframe := hran.frame_of_no_capture (capturesInto_of_fetch_init hf)
    exact (frameFits_settling (s := u.advance .init) rfl).mpr (hframe.trans ((frameFits_init hdue).mp hs.frame))
  | set =>
    have hframe := hran.frame_of_no_capture (capturesInto_of_fetch_set hf)
    have hdue' : u.activity = .transacting .set := hactivity.trans hdue
    refine frameFits_advance_set hdue' ((frameFits_set hdue').mpr ?_)
    rw [hu, hframe]
    exact (frameFits_set hdue).mp hs.frame
  | read =>
    obtain ⟨f, hidx⟩ := idx_of_frameFits (by decide) hdue hs.frame
    obtain ⟨b, hframe⟩ := hran.frame_of_capture (capturesInto_of_fetch_read hidx hf) hreleased
    exact frameFits_advance_read hdue hs.frame hidx hactivity hu hframe

/-- The trace after a completed transaction stands where the next is due. -/
theorem State.Inv.traceLegal_transacted (hreleased : u.cs = .deasserted) : (u.advance op).traceLegal = true := by
  obtain ⟨hu, hactivity, -⟩ := hran.keeps_control
  obtain ⟨hcs, htrace, -⟩ := u.advance_frame op
  obtain ⟨d, he, hallowed⟩ := encode_of_fetch hdue hf
  obtain ⟨i0, i1, hevents⟩ := hran.trace_of_released he hreleased
  have hnext : (u.advance op).expected = Expect.afterAddress s.dueAddress := by
    have haddress : u.dueAddress = s.dueAddress := by simp only [State.dueAddress, hu, hactivity]
    rw [← haddress]
    exact expected_advance (hactivity.trans hdue) fun hop => hu ▸ idx_of_frameFits hop hdue hs.frame
  rw [traceLegal_released (hcs.trans hreleased), htrace, hevents, phaseOf_append, (traceLegal_released hc).mp hs.trace,
    observe_transaction _ _ d i0 i1 (expected_ne_settleDelay hdue) (expected_allows_dueAddress hdue) hallowed, hnext]

/-- A completed transaction and the advance after it keep the invariant. -/
theorem State.Inv.transacted (hreleased : u.cs = .deasserted) : (u.advance op).Inv where
  cells := by
    obtain ⟨-, -, -, -, -, hcells, -⟩ := u.advance_frame op
    exact hcells ▸ hran.cells_wf hs.cells
  dow := u.advance_dow op (hran.frame_dow.trans hs.dow)
  frame := hs.frameFits_transacted hdue hf hran hreleased
  select := by
    obtain ⟨hcs, -⟩ := u.advance_frame op
    simp only [State.selectFits, hcs, hreleased]
  trace := hs.traceLegal_transacted hc hdue hf hran hreleased

end

/-! ### The other steps keep the invariant -/

/-- The beginning of an operation: SET_DATETIME fills its frame, READ_DATETIME empties it, and each is expected. -/
theorem State.Inv.begun {s : State} (hs : s.Inv) (hc : s.cs = .deasserted) (hidle : s.activity = .idle)
    (r : HostRequest) (rest : List HostRequest) : (State.begun r { s with requests := rest }).Inv := by
  have hselect : (State.begun r { s with requests := rest }).selectFits = true := by
    simp only [State.selectFits, State.begun_cs, hc]
  have hphase : phaseOf s.trace = some (.released .anyOperation) := by
    rw [(traceLegal_released hc).mp hs.trace, State.expected, hidle]
  have htrace (t : State) (ht : t.cs = .deasserted) (hexpected : t.expected = .anyOperation) (he : t.trace = s.trace) :
      t.traceLegal = true := by
    rw [traceLegal_released ht, he, hphase, hexpected]
  cases r with
  | init =>
    refine ⟨hs.cells, hs.dow, (frameFits_init rfl).mpr ?_, hselect, htrace _ hc rfl rfl⟩
    exact (frameFits_idle hidle).mp hs.frame
  | setDatetime t =>
    refine ⟨hs.cells, rfl, (frameFits_set rfl).mpr ⟨Field.index_mem .sec, fun i hi => ?_⟩, hselect, htrace _ hc rfl rfl⟩
    obtain ⟨f, rfl⟩ := exists_field_of_mem hi
    exact congrArg Option.isSome (encodeFrame_get t f)
  | readDatetime => exact ⟨hs.cells, rfl, rfl, hselect, htrace _ hc rfl rfl⟩

/-- The settle delay is what is expected. -/
theorem State.Inv.settled {s : State} (hs : s.Inv) (hc : s.cs = .deasserted) (hsettling : s.activity = .settling) :
    ({ s.wait Config.settle with inited := true, activity := .idle } : State).Inv where
  cells := hs.cells
  dow := hs.dow
  frame := (frameFits_idle rfl).mpr ((frameFits_settling hsettling).mp hs.frame)
  select := by simp only [State.selectFits, State.wait_cs, hc]
  trace := by
    have hphase : phaseOf s.trace = some (.released .settleDelay) := by
      rw [(traceLegal_released hc).mp hs.trace, State.expected, hsettling]
    refine (traceLegal_released (by exact hc)).mpr ?_
    rw [State.wait_trace, phaseOf_append, hphase]
    rfl

/-- The decode drops the frame and sends nothing. -/
theorem State.Inv.decoded {s : State} (hs : s.Inv) (hc : s.cs = .deasserted) (hdecoding : s.activity = .decoding)
    (t : CivilTime) : ({ s.complete with returned := s.returned ++ [t] } : State).Inv where
  cells := hs.cells
  dow := rfl
  frame := (frameFits_idle rfl).mpr rfl
  select := by simp only [State.selectFits, State.complete_cs, hc]
  trace := by
    refine (traceLegal_released (by exact hc)).mpr ?_
    rw [State.complete_trace, (traceLegal_released hc).mp hs.trace, State.expected, hdecoding]
    rfl

/-- Settles O45: case by case of what a step can do. -/
theorem everyStepKeepsTheMachineInvariant : Obligations.EveryStepKeepsTheMachineInvariant := by
  unfold Obligations.EveryStepKeepsTheMachineInvariant
  intro s t hs h
  cases stepNext_of_step h with
  | selected | waiting => exact hs
  | begun r rest cs idle => exact hs.begun cs idle r rest
  | stuck op i u cs due fetched ran selected => exact hs.stuck cs due fetched ran selected
  | transacted op i u cs due fetched ran released => exact hs.transacted cs due fetched ran released
  | settled cs settling => exact hs.settled cs settling
  | decoded time cs decoding => exact hs.decoded cs decoding time

end Sys2Proof.Machine
end

section
/-! PROOFS. What holds in the states of the machine invariant: no step stops (60_exceptions.md R180), an operation
completes if the bus answers (60_exceptions.md R188), and a delay stands only after the control write (R190). -/

namespace Sys2Proof.Machine

/-! ### No step stops -/

/-- The transaction due in a state of the invariant is one of the thirteen. -/
theorem State.Inv.exists_fetch {s : State} (hs : s.Inv) {op : Op} (hdue : s.activity = .transacting op) :
    ∃ i, fetch op s = .ok (encode i) := by
  cases op with
  | init => exact ⟨.wrCtrl, rfl⟩
  | set =>
    obtain ⟨hidx, hfilled⟩ := (frameFits_set hdue).mp hs.frame
    obtain ⟨f, hf⟩ := exists_field_of_mem hidx
    obtain ⟨v, hv⟩ := Option.isSome_iff_exists.mp (hfilled s.idx hidx)
    exact ⟨_, fetch_set_of_field hf hv⟩
  | read =>
    obtain ⟨f, hf⟩ := idx_of_frameFits (by decide) hdue hs.frame
    exact ⟨_, fetch_read_of_field hf⟩

/-- From a state of the invariant a step can always do something. -/
theorem State.Inv.exists_stepNext {s : State} (hs : s.Inv) : ∃ t, StepNext s t := by
  cases hc : s.cs with
  | asserted => exact ⟨s, .selected hc⟩
  | deasserted =>
    cases ha : s.activity with
    | idle =>
      cases hr : s.requests with
      | nil => exact ⟨s, .waiting hc ha hr⟩
      | cons r rest => exact ⟨_, .begun r rest hc ha hr⟩
    | transacting op =>
      obtain ⟨i, hf⟩ := hs.exists_fetch ha
      obtain ⟨u, hexec⟩ := exec_released i s hc
      obtain ⟨-, hran⟩ := exec_next_cases hexec
      cases hu : u.cs with
      | asserted => exact ⟨u, .stuck op i u hc ha hf hran hu⟩
      | deasserted => exact ⟨_, .transacted op i u hc ha hf hran hu⟩
    | settling => exact ⟨_, .settled hc ha⟩
    | decoding =>
      obtain ⟨t, ht⟩ := decodeFrame_of_filled ((frameFits_decoding ha).mp hs.frame)
      exact ⟨_, .decoded t hc ha ht⟩

/-- Settles O46: in the invariant the transaction due has its bytes and a decode has its frame. -/
theorem noStepOfTheInvariantStops : Obligations.NoStepOfTheInvariantStops := by
  unfold Obligations.NoStepOfTheInvariantStops
  intro s hs
  obtain ⟨t, ht⟩ := hs.exists_stepNext
  exact ⟨t, step_of_stepNext ht⟩

/-! ### Completion -/

/-- How many transactions are due from an index on (42_sequences.md R163, R164). -/
def transactionsLeft (i : SeqIndex) : Nat :=
  match i.toNat with
  | 0 => 6
  | 1 => 5
  | 2 => 4
  | 4 => 3
  | 5 => 2
  | 6 => 1
  | _ => 0

theorem transactionsLeft_next : ∀ i j, nextIdx i = some j → transactionsLeft i = transactionsLeft j + 1 := by decide

theorem transactionsLeft_last : ∀ i ∈ Config.fieldIdx, nextIdx i = none → transactionsLeft i = 1 := by decide

theorem transactionsLeft_le : ∀ i, transactionsLeft i ≤ 6 := by decide

/-- How many steps the operation in progress still takes if the bus answers (log 9). -/
def State.stepsLeft (s : State) : Nat :=
  match s.activity with
  | .idle => 0
  | .transacting .init => 2
  | .settling => 1
  | .transacting .set => transactionsLeft s.idx
  | .transacting .read => transactionsLeft s.idx + 1
  | .decoding => 1

theorem State.stepsLeft_le (s : State) : s.stepsLeft ≤ 7 := by
  have hidx := transactionsLeft_le s.idx
  unfold State.stepsLeft
  split <;> omega

theorem State.stepsLeft_set {s : State} (h : s.activity = .transacting .set) :
    s.stepsLeft = transactionsLeft s.idx := by
  simp only [State.stepsLeft, h]

theorem State.stepsLeft_read {s : State} (h : s.activity = .transacting .read) :
    s.stepsLeft = transactionsLeft s.idx + 1 := by
  simp only [State.stepsLeft, h]

/-- Each advance takes one step off what is left. -/
theorem State.stepsLeft_advance {s : State} {op : Op} (hdue : s.activity = .transacting op)
    (hidx : op ≠ .init → s.idx ∈ Config.fieldIdx) : s.stepsLeft = (s.advance op).stepsLeft + 1 := by
  rcases s.advance_cases op with ⟨rfl, hs⟩ | ⟨hop, j, hj, hs⟩ | ⟨rfl, hj, hs⟩ | ⟨rfl, hj, hs⟩ <;> rw [hs]
  · simp only [State.stepsLeft, hdue]
  · cases op with
    | init => exact absurd rfl hop
    | set =>
      rw [State.stepsLeft_set hdue, State.stepsLeft_set (s := { s with idx := j }) hdue, transactionsLeft_next _ j hj]
    | read =>
      rw [State.stepsLeft_read hdue, State.stepsLeft_read (s := { s with idx := j }) hdue, transactionsLeft_next _ j hj]
  · rw [State.stepsLeft_set hdue, transactionsLeft_last _ (hidx (by decide)) hj]
    rfl
  · rw [State.stepsLeft_read hdue, transactionsLeft_last _ (hidx (by decide)) hj]
    rfl

/-- An instruction that ends on a bus that answers for ever leaves such a bus and chip-select released. -/
theorem ExecNext.of_answersLeft_none {i : Instr} {s t : State} (h : ExecNext i s t) (hb : s.answersLeft = none) :
    t.answersLeft = none ∧ t.cs = .deasserted := by
  have hanswers : s.busAnswers 2 = true := by simp only [State.busAnswers, hb]
  refine ⟨?_, h.released_iff.mpr hanswers⟩
  cases h with
  | wrote | captured => exact congrArg (Option.map (· - 2)) hb
  | addressUnanswered answers | dataUnanswered _ _ answers => cases hb.symm.trans answers

/-- On a bus that answers for ever, every step of an operation brings it one step nearer to its end. -/
theorem StepNext.progress {s t : State} (h : StepNext s t) (hs : s.Inv) (hc : s.cs = .deasserted)
    (hb : s.answersLeft = none) (hbusy : s.activity ≠ .idle) :
    t.cs = .deasserted ∧ t.answersLeft = none ∧ t.requests = s.requests ∧ s.stepsLeft = t.stepsLeft + 1 := by
  cases h with
  | selected cs => cases hc.symm.trans cs
  | waiting _ idle => exact absurd idle hbusy
  | begun _ _ _ idle => exact absurd idle hbusy
  | stuck op i _ _ _ _ ran selected => cases (ran.of_answersLeft_none hb).2.symm.trans selected
  | transacted op i u _ due _ ran =>
    obtain ⟨hanswers, hreleased⟩ := ran.of_answersLeft_none hb
    obtain ⟨hidx, hactivity, -, -, hrequests, -⟩ := ran.keeps_control
    obtain ⟨hcs, -, -, hrequests', -, -, hanswers', -⟩ := u.advance_frame op
    refine ⟨hcs.trans hreleased, hanswers'.trans hanswers, hrequests'.trans hrequests, ?_⟩
    have hsame : s.stepsLeft = u.stepsLeft := by simp only [State.stepsLeft, hidx, hactivity]
    rw [hsame]
    refine State.stepsLeft_advance (hactivity.trans due) fun hop => ?_
    obtain ⟨f, hf⟩ := idx_of_frameFits hop due hs.frame
    exact hidx ▸ hf ▸ Field.index_mem f
  | settled _ settling => exact ⟨hc, hb, rfl, by simp only [State.stepsLeft, settling]⟩
  | decoded _ _ decoding => exact ⟨hc, hb, rfl, by simp only [State.stepsLeft, decoding, State.complete_activity]⟩

/-- An operation ends within the steps that are left of it. -/
theorem State.Inv.run_stepsLeft {s : State} (hs : s.Inv) (hc : s.cs = .deasserted) (hb : s.answersLeft = none) :
    ∃ k t, k ≤ s.stepsLeft ∧ Sys2Proof.core.run k s = .next t ∧ t.busy = false ∧ t.requests = s.requests := by
  by_cases hidle : s.activity = .idle
  · exact ⟨0, s, Nat.zero_le _, run_zero s, s.busy_eq_false_iff.mpr hidle, rfl⟩
  · obtain ⟨t, ht⟩ := hs.exists_stepNext
    have hstep := step_of_stepNext ht
    obtain ⟨hc', hb', hrequests, hleft⟩ := ht.progress hs hc hb hidle
    obtain ⟨k, u, hk, hrun, hbusy, hrequests'⟩ :=
      State.Inv.run_stepsLeft (everyStepKeepsTheMachineInvariant s t hs hstep) hc' hb'
    exact ⟨k + 1, u, by omega, (run_succ k s t hstep).trans hrun, hbusy, hrequests'.trans hrequests⟩
termination_by s.stepsLeft
decreasing_by omega

/-- Settles O42: the steps left of an operation are at most seven, and each step of it takes one off. -/
theorem operationCompletesIfTheBusAnswers : Obligations.OperationCompletesIfTheBusAnswers := by
  unfold Obligations.OperationCompletesIfTheBusAnswers
  intro s hs hc hb
  obtain ⟨k, t, hk, hrun, hbusy, hrequests⟩ := hs.run_stepsLeft hc hb
  exact ⟨k, t, hk.trans (s.stepsLeft_le.trans (by decide)), hrun, hbusy, hrequests⟩

/-! ### The delay -/

/-- Where an observer does not stand as at reset, a last event brought it there. -/
theorem phaseOf_last {xs : List BusEvent} {q : BusPhase} (h : phaseOf xs = some q)
    (hne : q ≠ .released .anyOperation) :
    ∃ ys e p, xs = ys ++ [e] ∧ phaseOf ys = some p ∧ p.observe e = some q := by
  rcases xs.eq_nil_or_concat' with rfl | ⟨ys, e, rfl⟩
  · cases h
    exact absurd rfl hne
  · obtain ⟨p, hp, hlast⟩ := phaseOf_append_some ys [e] q h
    exact ⟨ys, e, p, rfl, hp, hlast⟩

/-- An observer stands selected only directly after a `CS+`. -/
theorem trace_of_selected {xs : List BusEvent} {x : Expect} (h : phaseOf xs = some (.selected x)) :
    ∃ pre, xs = pre ++ [.csOn] := by
  obtain ⟨pre, e, p, rfl, -, hlast⟩ := phaseOf_last h nofun
  rcases p.observe_cases _ e hlast with ⟨_, -, rfl, -, -⟩ | ⟨-, -, hq⟩ | ⟨_, _, _, -, -, -, hq⟩ | ⟨_, _, _, -, -, -, hq⟩
    | ⟨_, -, -, hq⟩
  · exact ⟨pre, rfl⟩
  all_goals cases hq

/-- An address byte seen stands directly after a `CS+`. -/
theorem trace_of_addressed {xs : List BusEvent} {a : Byte} (h : phaseOf xs = some (.addressed a)) :
    ∃ pre i0, xs = pre ++ [.csOn, .xfer a i0] := by
  obtain ⟨ys, e, p, rfl, hp, hlast⟩ := phaseOf_last h nofun
  rcases p.observe_cases _ e hlast with ⟨_, -, -, -, hq⟩ | ⟨-, -, hq⟩ | ⟨x, o, i, rfl, rfl, -, hq⟩
    | ⟨_, _, _, -, -, -, hq⟩ | ⟨_, -, -, hq⟩ <;> cases hq
  obtain ⟨pre, rfl⟩ := trace_of_selected hp
  exact ⟨pre, i, List.append_assoc _ _ _⟩

/-- A data byte seen stands after its address byte, and is allowed after it. -/
theorem trace_of_dataDone {xs : List BusEvent} {a : Byte} (h : phaseOf xs = some (.dataDone a)) :
    ∃ pre i0 d i1, xs = pre ++ [.csOn, .xfer a i0, .xfer d i1] ∧ dataAllowed a d = true := by
  obtain ⟨ys, e, p, rfl, hp, hlast⟩ := phaseOf_last h nofun
  rcases p.observe_cases _ e hlast with ⟨_, -, -, -, hq⟩ | ⟨-, -, hq⟩ | ⟨_, _, _, -, -, -, hq⟩
    | ⟨b, d, i, rfl, rfl, hallowed, hq⟩ | ⟨_, -, -, hq⟩ <;> cases hq
  obtain ⟨pre, i0, rfl⟩ := trace_of_addressed hp
  exact ⟨pre, i0, d, i, List.append_assoc _ _ _, hallowed⟩

/-- Only the control register's transaction is followed by the settle delay. -/
theorem afterAddress_eq_settleDelay : ∀ a, Expect.afterAddress a = .settleDelay → a = 0x8E#8 := by decide

/-- Where the settle delay is expected, the control write stands last. -/
theorem trace_of_settleDelay {xs : List BusEvent} (h : phaseOf xs = some (.released .settleDelay)) :
    ∃ pre i0 i1, xs = pre ++ [.csOn, .xfer 0x8E#8 i0, .xfer 0x60#8 i1, .csOff] := by
  obtain ⟨ys, e, p, rfl, hp, hlast⟩ := phaseOf_last h (by simp)
  rcases p.observe_cases _ e hlast with ⟨_, -, -, -, hq⟩ | ⟨-, -, hq⟩ | ⟨_, _, _, -, -, -, hq⟩
    | ⟨_, _, _, -, -, -, hq⟩ | ⟨a, rfl, rfl, hq⟩
  case inr.inr.inr.inr =>
    obtain rfl := afterAddress_eq_settleDelay a (BusPhase.released.inj hq).symm
    obtain ⟨pre, i0, d, i1, rfl, hallowed⟩ := trace_of_dataDone hp
    obtain rfl := dataAllowed_ctrl.mp hallowed
    exact ⟨pre, i0, i1, List.append_assoc _ _ _⟩
  all_goals cases hq

/-- Settles O48: an observer sees a delay only where the settle delay is expected, and there the control write stands
last. -/
theorem delayStandsOnlyAfterTheControlWrite : Obligations.DelayStandsOnlyAfterTheControlWrite := by
  unfold Obligations.DelayStandsOnlyAfterTheControlWrite
  intro s hs before after n ht
  obtain ⟨q, hq⟩ := hs.phaseOf_trace
  rw [ht] at hq
  obtain ⟨p, hp, hrest⟩ := phaseOf_append_some before _ q hq
  obtain ⟨r, hwait, -⟩ := observeAll_cons_some p q _ _ hrest
  obtain ⟨rfl, rfl, -⟩ : p = .released .settleDelay ∧ n = 10 ∧ r = .released .anyOperation := by
    simpa using p.observe_cases r _ hwait
  exact ⟨rfl, trace_of_settleDelay hp⟩

end Sys2Proof.Machine
end

section
/-! SUPPORT. The three operations step by step, on a bus that answers (42_sequences.md R160 to R163). -/

namespace Sys2Proof.Machine

/-! ### The begin of an operation -/

/-- An idle block that is asked begins the operation. -/
theorem step_of_request {s : State} {r : HostRequest} {rest : List HostRequest} (hc : s.cs = .deasserted)
    (hidle : s.activity = .idle) (hr : s.requests = r :: rest) :
    step s = .next (State.begun r { s with requests := rest }) :=
  step_of_stepNext (.begun r rest hc hidle hr)

/-! ### SET_DATETIME -/

/-- SET_DATETIME of t is about to write field f, and the bus answers n more transfers. -/
structure State.WriteDue (t : CivilTime) (f : Field) (n : Nat) (s : State) : Prop where
  cs       : s.cs = .deasserted
  activity : s.activity = .transacting .set
  idx      : s.idx = f.index
  frame    : s.frame = encodeFrame t
  answers  : s.busAnswers n = true

/-- Field f of t has been written, and field g is next. -/
def State.wroteThen (t : CivilTime) (f g : Field) (s : State) : State :=
  { s.afterWrite f.index.toNat (encMux f t) with idx := g.index }

@[simp] theorem State.wroteThen_answersLeft (t : CivilTime) (f g : Field) (s : State) :
    (s.wroteThen t f g).answersLeft = s.answersLeft.map (· - 2) := rfl

section
variable {s : State} {t : CivilTime} {f : Field}

/-- The write due sends the multiplexer's byte, and the operation advances. -/
theorem State.WriteDue.step_advance {n : Nat} (h : s.WriteDue t f (2 + n)) :
    step s = .next ((s.afterWrite f.index.toNat (encMux f t)).advance .set) := by
  have hbyte : s.frame.get s.idx = some (encMux f t) := by rw [h.frame, h.idx, encodeFrame_get]
  have hanswers := s.busAnswers_mono 2 (2 + n) (by omega) h.answers
  rw [← Field.reg_toNat]
  exact step_of_stepNext (.transacted .set _ _ h.cs h.activity (fetch_set_of_field h.idx hbyte)
    (.wrote f.reg _ hanswers (storesTo_writeInstr f _) (capturesInto_writeInstr f _) (encode_writeInstr f _)) rfl)

/-- A write that is not the last is followed by the write of the next field. -/
theorem State.WriteDue.step_next {n : Nat} (g : Field) (h : s.WriteDue t f (2 + n))
    (hg : nextIdx f.index = some g.index) :
    step s = .next (s.wroteThen t f g) ∧ State.WriteDue t g n (s.wroteThen t f g) := by
  constructor
  · rw [h.step_advance, State.advance_of_next (by decide) (h.idx ▸ hg)]
    rfl
  · exact ⟨rfl, h.activity, rfl, h.frame, busAnswers_of_map_sub s _ 2 n rfl h.answers⟩

/-- The last write ends the operation. -/
theorem State.WriteDue.step_last {n : Nat} (h : s.WriteDue t f (2 + n)) (hf : nextIdx f.index = none) :
    step s = .next (s.afterWrite f.index.toNat (encMux f t)).complete := by
  rw [h.step_advance, State.advance_set_of_end (h.idx ▸ hf)]

end

/-! ### READ_DATETIME -/

/-- READ_DATETIME is about to read field f, and the bus answers n more transfers. -/
structure State.ReadDue (f : Field) (n : Nat) (s : State) : Prop where
  cs       : s.cs = .deasserted
  activity : s.activity = .transacting .read
  idx      : s.idx = f.index
  answers  : s.busAnswers n = true

/-- Field f has been read, and field g is next. -/
def State.readThen (f g : Field) (s : State) : State := { s.afterRead f with idx := g.index }

@[simp] theorem State.readThen_answersLeft (f g : Field) (s : State) :
    (s.readThen f g).answersLeft = s.answersLeft.map (· - 2) := rfl

section
variable {s : State} {f : Field}

/-- The read due captures its byte, and the operation advances. -/
theorem State.ReadDue.step_advance {n : Nat} (h : s.ReadDue f (2 + n)) :
    step s = .next ((s.afterRead f).advance .read) := by
  have hanswers := s.busAnswers_mono 2 (2 + n) (by omega) h.answers
  exact step_of_stepNext (.transacted .read _ _ h.cs h.activity (fetch_read_of_field h.idx)
    (.captured f hanswers (storesTo_readInstr f) (capturesInto_readInstr f) (encode_readInstr f)) rfl)

/-- A read that is not the last is followed by the read of the next field. -/
theorem State.ReadDue.step_next {n : Nat} (g : Field) (h : s.ReadDue f (2 + n)) (hg : nextIdx f.index = some g.index) :
    step s = .next (s.readThen f g) ∧ State.ReadDue g n (s.readThen f g) := by
  constructor
  · rw [h.step_advance, State.advance_of_next (by decide) (h.idx ▸ hg)]
    rfl
  · exact ⟨rfl, h.activity, rfl, busAnswers_of_map_sub s _ 2 n rfl h.answers⟩

/-- After the last read the decode is due. -/
theorem State.ReadDue.step_last {n : Nat} (h : s.ReadDue f (2 + n)) (hf : nextIdx f.index = none) :
    step s = .next { s.afterRead f with activity := .decoding } := by
  rw [h.step_advance, State.advance_read_of_end (h.idx ▸ hf)]

end

end Sys2Proof.Machine
end

section
/-! PROOFS. The three operations from the idle block to the idle block (42_sequences.md R160 to R164;
70_reset_and_hazards.md R202, R208). -/

namespace Sys2Proof.Machine

/-- Settles O32: the beginning, the control write, and the settle delay. -/
theorem initWritesControlThenSettles : Obligations.InitWritesControlThenSettles := by
  unfold Obligations.InitWritesControlThenSettles
  intro s rest hc hidle hr hb
  have hbegin := step_of_request hc hidle hr
  generalize hs0 : State.begun .init { s with requests := rest } = s0 at hbegin
  have hwrite : step s0 = .next { s0.afterWrite 0x0E 0x60#8 with activity := .settling } := by
    subst hs0
    exact step_of_stepNext (.transacted .init .wrCtrl _ hc rfl rfl (.wrote Config.ctrlIndex 0x60#8 hb rfl rfl rfl) rfl)
  have hsettle := step_settling { s0.afterWrite 0x0E 0x60#8 with activity := .settling } rfl rfl
  rw [run_succ 1 _ _ hbegin, run_succ 0 _ _ hwrite, run_succ 2 _ _ hbegin, run_succ 1 _ _ hwrite,
    run_succ 0 _ _ hsettle, run_zero, run_zero]
  subst hs0
  refine ⟨⟨_, rfl, rfl, rfl, rfl⟩, congrArg _ (State.ext rfl rfl rfl rfl rfl rfl rfl rfl ?_ rfl rfl rfl rfl rfl)⟩
  exact List.append_assoc s.trace _ _

/-- Settles O33: the beginning and six writes, each followed by the next. -/
theorem setDatetimeWritesSixRegisters : Obligations.SetDatetimeWritesSixRegisters := by
  unfold Obligations.SetDatetimeWritesSixRegisters
  intro s t rest hc hidle hr hb
  have hbegin := step_of_request hc hidle hr
  have hsec : State.WriteDue t .sec (2 + 10) (State.begun (.setDatetime t) { s with requests := rest }) :=
    ⟨hc, rfl, rfl, rfl, hb⟩
  obtain ⟨h0, hmin⟩ := hsec.step_next (n := 10) .min rfl
  obtain ⟨h1, hhour⟩ := State.WriteDue.step_next (n := 8) .hour hmin rfl
  obtain ⟨h2, hday⟩ := State.WriteDue.step_next (n := 6) .day hhour rfl
  obtain ⟨h4, hmon⟩ := State.WriteDue.step_next (n := 4) .mon hday rfl
  obtain ⟨h5, hyear⟩ := State.WriteDue.step_next (n := 2) .year hmon rfl
  have h6 := State.WriteDue.step_last (n := 0) hyear rfl
  rw [run_succ 6 _ _ hbegin, run_succ 5 _ _ h0, run_succ 4 _ _ h1, run_succ 3 _ _ h2, run_succ 2 _ _ h4,
    run_succ 1 _ _ h5, run_succ 0 _ _ h6, run_zero]
  refine congrArg _ (State.ext rfl rfl hc.symm hidle.symm rfl rfl ?unlocked rfl rfl rfl rfl rfl ?answersLeft rfl)
  case unlocked => simp [State.wroteThen, State.begun, Field.index]
  case answersLeft =>
    simp only [State.complete_answersLeft, State.afterWrite_answersLeft, State.wroteThen_answersLeft,
      State.begun_answersLeft, map_sub_map_sub, Nat.reduceAdd]

/-- Settles O34: the beginning, six reads, each followed by the next, and the decode. -/
theorem readDatetimeReadsSixRegisters : Obligations.ReadDatetimeReadsSixRegisters := by
  unfold Obligations.ReadDatetimeReadsSixRegisters
  intro s rest hc hidle hr hb
  have hbegin := step_of_request hc hidle hr
  have hsec : State.ReadDue .sec (2 + 10) (State.begun .readDatetime { s with requests := rest }) :=
    ⟨hc, rfl, rfl, hb⟩
  obtain ⟨h0, hmin⟩ := hsec.step_next (n := 10) .min rfl
  obtain ⟨h1, hhour⟩ := State.ReadDue.step_next (n := 8) .hour hmin rfl
  obtain ⟨h2, hday⟩ := State.ReadDue.step_next (n := 6) .day hhour rfl
  obtain ⟨h4, hmon⟩ := State.ReadDue.step_next (n := 4) .mon hday rfl
  obtain ⟨h5, hyear⟩ := State.ReadDue.step_next (n := 2) .year hmon rfl
  have h6 := State.ReadDue.step_last (n := 0) hyear rfl
  rw [run_succ 7 _ _ hbegin, run_succ 6 _ _ h0, run_succ 5 _ _ h1, run_succ 4 _ _ h2, run_succ 3 _ _ h4,
    run_succ 2 _ _ h5, run_succ 1 _ _ h6]
  refine (run_succ 0 _ _ (step_of_stepNext (.decoded _ rfl rfl (decodeFrame_filled _ _ _ _ _ _ _)))).trans ?_
  refine congrArg _ (State.ext rfl rfl hc.symm hidle.symm rfl rfl rfl rfl rfl rfl rfl rfl ?answersLeft rfl)
  case answersLeft =>
    simp only [State.complete_answersLeft, State.afterRead_answersLeft, State.readThen_answersLeft,
      State.begun_answersLeft, map_sub_map_sub, Nat.reduceAdd]

/-! ### Counting -/

/-- A transaction's events: one `CS+`, two transfers, one `CS-`, no delay. -/
theorem transactionEvents_counts (a i0 d i1 : Byte) :
    (transactionEvents a i0 d i1).count .csOn = 1 ∧ (transactionEvents a i0 d i1).countP BusEvent.isXfer = 2
    ∧ (transactionEvents a i0 d i1).count .csOff = 1 ∧ (transactionEvents a i0 d i1).count (.wait 10) = 0 := by
  simp [transactionEvents, BusEvent.isXfer, List.countP_cons]

/-- The events of one completed transaction. -/
def IsTransaction (ev : List BusEvent) : Prop := ∃ a i0 d i1, ev = transactionEvents a i0 d i1

theorem State.writeEvents_isTransaction (s : State) (k a : Nat) (v : Byte) : IsTransaction (s.writeEvents k a v) :=
  ⟨_, _, _, _, rfl⟩

theorem State.readEvents_isTransaction (s : State) (k a : Nat) : IsTransaction (s.readEvents k a) := ⟨_, _, _, _, rfl⟩

/-- The events of transactions in a row. -/
theorem flatten_counts (evs : List (List BusEvent)) (h : ∀ ev ∈ evs, IsTransaction ev) :
    evs.flatten.count .csOn = evs.length ∧ evs.flatten.countP BusEvent.isXfer = 2 * evs.length
    ∧ evs.flatten.count .csOff = evs.length ∧ evs.flatten.count (.wait 10) = 0 := by
  induction evs with
  | nil => exact ⟨rfl, rfl, rfl, rfl⟩
  | cons ev evs ih =>
    obtain ⟨⟨a, i0, d, i1, rfl⟩, hrest⟩ := List.forall_mem_cons.mp h
    obtain ⟨hon, hxfer, hoff, hwait⟩ := ih hrest
    obtain ⟨hon1, hxfer1, hoff1, hwait1⟩ := transactionEvents_counts a i0 d i1
    simp only [List.flatten_cons, List.count_append, List.countP_append, List.length_cons]
    omega

/-- Settles O35: INIT's five events; the other two operations' six transactions, each with its four events. -/
theorem operationsHaveTheirTransactionCount : Obligations.OperationsHaveTheirTransactionCount := by
  unfold Obligations.OperationsHaveTheirTransactionCount
  intro s r rest hc hidle hr hb
  have hidleBusy {u : State} (hu : u.activity = .idle) : u.busy = false := u.busy_eq_false_iff.mpr hu
  cases r with
  | init =>
    obtain ⟨-, hrun⟩ := initWritesControlThenSettles s rest hc hidle hr (s.busAnswers_mono 2 12 (by decide) hb)
    exact ⟨3, _, _, hrun, rfl, rfl, rfl, rfl, rfl, rfl, rfl⟩
  | setDatetime t =>
    have hrun := setDatetimeWritesSixRegisters s t rest hc hidle hr hb
    refine ⟨7, _, List.flatten [s.writeEvents 0 0 (encMux .sec t), s.writeEvents 1 1 (encMux .min t),
      s.writeEvents 2 2 (encMux .hour t), s.writeEvents 3 4 (encMux .day t), s.writeEvents 4 5 (encMux .mon t),
      s.writeEvents 5 6 (encMux .year t)], hrun, hidleBusy hidle, rfl, ?_, ?_⟩
    · simp only [List.flatten_cons, List.flatten_nil, List.append_nil, List.append_assoc]
    · exact flatten_counts _ (by simp [State.writeEvents_isTransaction])
  | readDatetime =>
    have hrun := readDatetimeReadsSixRegisters s rest hc hidle hr hb
    refine ⟨8, _, List.flatten [s.readEvents 0 0, s.readEvents 1 1, s.readEvents 2 2, s.readEvents 3 4,
      s.readEvents 4 5, s.readEvents 5 6], hrun, hidleBusy hidle, rfl, ?_, ?_⟩
    · simp only [List.flatten_cons, List.flatten_nil, List.append_nil, List.append_assoc]
    · exact flatten_counts _ (by simp [State.readEvents_isTransaction])

/-! ### The simulator -/

/-- The register image after SET_DATETIME of t. -/
def Memory.writeTime (m : Memory) (t : CivilTime) : Memory :=
  (((((m.write 0 (encMux .sec t)).write 1 (encMux .min t)).write 2 (encMux .hour t)).write 4 (encMux .day t)).write 5
    (encMux .mon t)).write 6 (encMux .year t)

/-- Each of the six registers then holds its byte. -/
theorem Memory.read_writeTime {m : Memory} (hm : m.wf = true) (t : CivilTime) (f : Field) :
    (m.writeTime t).read f.index.toNat = encMux f t := by
  have wf0 := m.write_wf 0 (encMux .sec t) (by decide) hm
  have wf1 := Memory.write_wf _ 1 (encMux .min t) (by decide) wf0
  have wf2 := Memory.write_wf _ 2 (encMux .hour t) (by decide) wf1
  have wf4 := Memory.write_wf _ 4 (encMux .day t) (by decide) wf2
  have wf5 := Memory.write_wf _ 5 (encMux .mon t) (by decide) wf4
  cases f <;> simp [Memory.writeTime, Field.index, Memory.read_write_other, Memory.read_write_same, *]

/-- Under the simulator a read captures the register's byte. -/
theorem State.readByte_simulator {s : State} (h : s.oracle = .simulator) (k a : Nat) :
    s.readByte k a = s.cells.read a := s.answer_simulator h _ _

/-- Settles O27: the six reads capture the six bytes written, and these decode to the time without its century. -/
theorem setThenReadReturnsTheTimeWithoutItsCentury : Obligations.SetThenReadReturnsTheTimeWithoutItsCentury := by
  unfold Obligations.SetThenReadReturnsTheTimeWithoutItsCentury
  intro s t rest hsim _ hwf hc hidle hb hr ht
  obtain ⟨u, hset, husim, huc, huidle, hurequests, hureturned, hucells, hub⟩ :
      ∃ u, Sys2Proof.core.run 7 s = .next u ∧ u.oracle = .simulator ∧ u.cs = .deasserted ∧ u.activity = .idle
        ∧ u.requests = .readDatetime :: rest ∧ u.returned = s.returned ∧ u.cells = s.cells.writeTime t
        ∧ u.busAnswers 12 = true :=
    ⟨_, setDatetimeWritesSixRegisters s t _ hc hidle hr (s.busAnswers_mono 12 24 (by decide) hb), hsim, hc, hidle, rfl,
      rfl, rfl, busAnswers_of_map_sub s _ 12 12 rfl hb⟩
  have hbyte (k : Nat) (f : Field) : u.readByte k f.index.toNat = encMux f t := by
    rw [State.readByte_simulator husim, hucells, Memory.read_writeTime hwf]
  refine ⟨_, (run_add 7 8 s u hset).trans (readDatetimeReadsSixRegisters u rest huc huidle hurequests hub),
    (State.busy_eq_false_iff _).mpr huidle, rfl, ?_⟩
  have htime := Except.ok.inj (decodeFrame_encodeFrame t ht)
  rw [← hureturned, ← htime, ← hbyte 5 .year, ← hbyte 4 .mon, ← hbyte 3 .day, ← hbyte 2 .hour, ← hbyte 1 .min,
    ← hbyte 0 .sec]
  rfl

end Sys2Proof.Machine
end
